-- ==== Sys2Proof/Word.lean ====
section
/-! DEFINITION. The two word types of the block: 32-bit registers (R8 `REG_WIDTH`) and bytes (R10). -/

namespace Sys2Proof

/-- A 32-bit register, command word or bus word (R8: `REG_WIDTH` and `CRC_REG_WIDTH` are 32). -/
abbrev Word := BitVec 32

/-- A byte, 8 bits (R10). -/
abbrev Byte := BitVec 8

end Sys2Proof
end

