-- ==== Sys2Proof/Config.lean ====
section
/-! DEFINITION. What an implementation fixes and the spec leaves OPEN (R8, R9, R14), and the free values that stand
for what the spec leaves undefined (93_implementation_defined.md U1, U2). Every constant here is opaque: nothing can
prove a value of it, so a theorem about the model holds for every value. -/

namespace Sys2Proof

/-- `BASE`: where the 256-byte window sits on the host bus (R8, R38, R47), OPEN. -/
opaque Config.base : Nat

/-- `T_CMD`: the time a command takes (R8, R114), OPEN. No rule of the spec, and no definition of the model, depends on it. -/
opaque Config.tCmd : Nat

/-- `OPC_SET_CLOCK`, the protocol opcode of the SetClock frame (R8), OPEN. -/
opaque Config.opcSetClock : Byte

/-- `OPC_SET_VIBRATION` (R8), OPEN. -/
opaque Config.opcSetVibration : Byte

/-- `OPC_SET_FULLSCREEN` (R8), OPEN. -/
opaque Config.opcSetFullscreen : Byte

/-- `OPC_UPDATE_DISPLAY` (R8), OPEN. -/
opaque Config.opcUpdateDisplay : Byte

/-- `OPC_SET_BACKLIGHT` (R8), OPEN. -/
opaque Config.opcSetBacklight : Byte

/-- `OPC_SET_WIDGET_LIST` (R8), OPEN. -/
opaque Config.opcSetWidgetList : Byte

/-- `OPC_CLEAR_SCREEN` (R8), OPEN. -/
opaque Config.opcClearScreen : Byte

/-- `OPC_GET_BATTERY` (R8), OPEN. -/
opaque Config.opcGetBattery : Byte

/-- `OPC_RESET_DEVICE` (R8), OPEN. -/
opaque Config.opcResetDevice : Byte

/-- `IDLE_MODE`, the mode byte of the ClearScreen frame (R8, R88), OPEN. -/
opaque Config.idleMode : Byte

/-- FREE VALUE (U1; R33, R34, R106; log entry 2). What the FRAME or RESP byte at window offset `off` holds before
anything has written it since reset, in the `epoch`-th life of the block (the number of resets so far). -/
opaque Config.unwrittenByte (epoch off : Nat) : Byte

/-- FREE VALUE (U2; R69, R74; log entry 3). The checksum of a span holding a FRAME byte that nothing has written since reset,
before it is masked to `order` bits; `draw` counts the checksums of that sort so far. -/
opaque Config.undefinedChecksum (draw : Nat) : Word

end Sys2Proof
end

