-- ==== Sys2Proof/Syntax.lean ====
section
/-! DEFINITION. The sixteen commands of spec/opcode_table.json (R53). A command word carries no operand fields (R52): a
command reads its operands from the ARG registers, FRAME_LEN, RESP and RESP_COUNT when it starts (R54). -/

namespace Sys2Proof

/-- The commands of R53, one constructor per row of the opcode table, in the table's order. -/
inductive Instr where
  /-- CRC_START (R66): begin a streaming checksum. -/
  | crcStart
  /-- CRC_FEED (R67): feed one byte into the running register. -/
  | crcFeed
  /-- CRC_FINAL (R68): the checksum of the streamed bytes. -/
  | crcFinal
  /-- CRC_SPAN (R69): the checksum of a span of the frame buffer. -/
  | crcSpan
  /-- FINALIZE (R74): fill the checksum trailer of the frame in FRAME. -/
  | finalize
  /-- ENC_SET_CLOCK (R81). -/
  | encSetClock
  /-- ENC_SET_VIBRATION (R82). -/
  | encSetVibration
  /-- ENC_SET_FULLSCREEN (R83). -/
  | encSetFullscreen
  /-- ENC_UPDATE_DISPLAY (R84). -/
  | encUpdateDisplay
  /-- ENC_UPDATE_DISPLAY_DEFAULT (R85). -/
  | encUpdateDisplayDefault
  /-- ENC_SET_BACKLIGHT (R86). -/
  | encSetBacklight
  /-- ENC_SET_WIDGET_LIST (R87). -/
  | encSetWidgetList
  /-- ENC_CLEAR_SCREEN (R88). -/
  | encClearScreen
  /-- ENC_GET_BATTERY (R89). -/
  | encGetBattery
  /-- ENC_RESET_DEVICE (R90). -/
  | encResetDevice
  /-- PARSE_BATTERY (R93): update the battery status from a received response. -/
  | parseBattery
deriving DecidableEq, Repr

end Sys2Proof
end

