-- ==== Sys2Proof/WellFormed.lean ====
section
/-! DEFINITION. When a command word is well formed (R52, R53, R56). An `Instr` has no operand fields, so every `Instr` is
well formed; what can be ill formed is the 32-bit word the host writes to CMD. The check is written from R53's list
of ILLEGAL codes and not from the decoder's table, so that the two can be held against each other. -/

namespace Sys2Proof

/-- R52: the reserved field RSV, bits [31:8], is 0. -/
def rsvClear (w : Word) : Bool := w.extractLsb' 8 24 == 0#24

/-- R53, last sentence: the codes that are illegal (0x00, 0x05 to 0x07, 0x09 to 0x0F, 0x1A to 0x1F, 0x21 to 0xFF). -/
def codeIllegal (c : Byte) : Bool :=
  c == 0x00#8 || (0x05#8 ≤ c && c ≤ 0x07#8) || (0x09#8 ≤ c && c ≤ 0x0F#8) ||
    (0x1A#8 ≤ c && c ≤ 0x1F#8) || 0x21#8 ≤ c

/-- R52: the command code, bits [7:0], is one of R53. -/
def codeListed (w : Word) : Bool := !codeIllegal (w.extractLsb' 0 8)

/-- R52: "The word is legal when RSV = 0 and CODE is listed in rule R53." -/
def wordWellFormed (w : Word) : Bool := rsvClear w && codeListed w

end Sys2Proof
end

