-- ==== Sys2Proof/Decode.lean ====
section
/-! DEFINITION. Decoding a command word (R52, R53, R56), the encoder, and the host's `decodeTableWord`. -/

namespace Sys2Proof

/-- Why a word written to CMD is no command (R56); either way the block reports ILLEGAL_CMD (R95). -/
inductive DecodeError where
  /-- RSV, bits [31:8], is not 0 (R52). -/
  | reservedBitsSet
  /-- CODE, bits [7:0], is not listed in R53. -/
  | unknownCode
deriving DecidableEq, Repr

/-- The command map of R53. -/
def commandMap : List (Byte × Instr) :=
  [(0x01#8, .crcStart), (0x02#8, .crcFeed), (0x03#8, .crcFinal), (0x04#8, .crcSpan),
   (0x08#8, .finalize),
   (0x10#8, .encSetClock), (0x11#8, .encSetVibration), (0x12#8, .encSetFullscreen),
   (0x13#8, .encUpdateDisplay), (0x14#8, .encUpdateDisplayDefault), (0x15#8, .encSetBacklight),
   (0x16#8, .encSetWidgetList), (0x17#8, .encClearScreen), (0x18#8, .encGetBattery),
   (0x19#8, .encResetDevice),
   (0x20#8, .parseBattery)]

/-- R52 `Execute`: RSV is checked first, then CODE is looked up in the command map. -/
def decode (w : Word) : Except DecodeError Instr :=
  if w.extractLsb' 8 24 = 0#24 then
    match commandMap.lookup (w.extractLsb' 0 8) with
    | some i => .ok i
    | none => .error .unknownCode
  else .error .reservedBitsSet

/-- The command code of a command (R53). -/
def code : Instr → Byte
  | .crcStart => 0x01#8
  | .crcFeed => 0x02#8
  | .crcFinal => 0x03#8
  | .crcSpan => 0x04#8
  | .finalize => 0x08#8
  | .encSetClock => 0x10#8
  | .encSetVibration => 0x11#8
  | .encSetFullscreen => 0x12#8
  | .encUpdateDisplay => 0x13#8
  | .encUpdateDisplayDefault => 0x14#8
  | .encSetBacklight => 0x15#8
  | .encSetWidgetList => 0x16#8
  | .encClearScreen => 0x17#8
  | .encGetBattery => 0x18#8
  | .encResetDevice => 0x19#8
  | .parseBattery => 0x20#8

/-- The command word of a command: CODE in bits [7:0], RSV = 0 in bits [31:8] (R52 format `C`). -/
def encode (i : Instr) : Word := 0#24 ++ code i

/-- The command word that the opcode table's `nbits` low bits of `w` stand for; every bit above `nbits` is 0. A command is one
32-bit word written to CMD in a single bus access, so there is no byte order to apply (R38, R52). -/
def tableWord (nbits w : Nat) : Word := BitVec.ofNat 32 (w % 2 ^ nbits)

/-- The instruction the decoder reads from a table row's word, or none where it refuses. -/
def decodeTableWord (nbits w : Nat) : Option Instr :=
  match decode (tableWord nbits w) with
  | .ok i => some i
  | .error _ => none

end Sys2Proof
end

