-- ==== Sys2Proof/Machine/Crc.lean ====
section
/-! DEFINITION. The CRC engine's pure functions (40_crc_engine.md section 1), one definition per rule R58 to R63. -/

namespace Sys2Proof.Machine

/-- The configuration tuple of R28. -/
structure CrcConfig where
  order : Nat
  poly : Word
  init : Word
  refIn : Bool
  refOut : Bool
  xorOut : Word
  direct : Bool
deriving DecidableEq, Repr

/-- `mask(n) = 2^n - 1` (R10), the bitmask covering `n` bits; 0xFFFFFFFF for 32 (R24). For a width the spec never
uses see log entry 9. -/
def maskOf (n : Nat) : Word := BitVec.ofNat 32 (2 ^ n - 1)

/-- `1 << (n - 1)`, the high-bit mask of order `n` (R25). -/
def highBitOf (n : Nat) : Word := BitVec.twoPow 32 (n - 1)

/-- The low `k` bits of `Reflect(v, n)`: bit `i` is bit `n-1-i` of `v` (R58). -/
def reflectBelow (v : Word) (n : Nat) : Nat → Word
  | 0 => 0#32
  | k + 1 => reflectBelow v n k ||| (if v.getLsbD (n - 1 - k) then BitVec.twoPow 32 k else 0#32)

/-- `Reflect(v, n)` (R58); bits of `v` at or above `n` are not read (log entry 16). -/
def reflect (v : Word) (n : Nat) : Word := reflectBelow v n n

/-- `ShiftStep(cfg, reg, bit)` (R59). -/
def shiftStep (cfg : CrcConfig) (reg : Word) (bit : Bool) : Word :=
  let shifted := (reg <<< 1) &&& maskOf cfg.order
  if (reg.getLsbD (cfg.order - 1) ^^ bit) = true then shifted ^^^ (cfg.poly &&& maskOf cfg.order)
  else shifted

/-- `k` shift steps that each feed a zero bit (the loop of R60). -/
def shiftZeros (cfg : CrcConfig) : Nat → Word → Word
  | 0, reg => reg
  | k + 1, reg => shiftZeros cfg k (shiftStep cfg reg false)

/-- `InitDirect(cfg)`, the direct-form seed (R60). -/
def initDirect (cfg : CrcConfig) : Word :=
  if cfg.direct = true then cfg.init &&& maskOf cfg.order
  else shiftZeros cfg cfg.order (cfg.init &&& maskOf cfg.order)

/-- Feed bits `k-1` down to 0 of `v`, the highest first (the loop of R61). -/
def feedBits (cfg : CrcConfig) (v : Word) : Nat → Word → Word
  | 0, reg => reg
  | k + 1, reg => feedBits cfg v k (shiftStep cfg reg (v.getLsbD k))

/-- `FeedByte(cfg, reg, b)` (R61). -/
def feedByte (cfg : CrcConfig) (reg : Word) (b : Byte) : Word :=
  let v := b.setWidth 32
  feedBits cfg (if cfg.refIn = true then reflect v 8 else v) 8 reg

/-- `Output(cfg, reg)` (R62). -/
def output (cfg : CrcConfig) (reg : Word) : Word :=
  let r := reg &&& maskOf cfg.order
  ((if cfg.refOut = true then reflect r cfg.order else r) ^^^ cfg.xorOut) &&& maskOf cfg.order

/-- `Checksum(cfg, bytes)` (R63); the span register lives only inside it (R37). -/
def checksum (cfg : CrcConfig) (bytes : List Byte) : Word :=
  output cfg (bytes.foldl (feedByte cfg) (initDirect cfg))

end Sys2Proof.Machine
end

