-- ==== Sys2Proof/Machine/State.lean ====
section
/-! DEFINITION. The architectural state of MWFC (R13), the host's side of the bus, and the state after reset (R106). -/

namespace Sys2Proof.Machine

/-- FRAME and RESP (R33, R34) as one sparse byte memory: a list of (window offset, byte) pairs, offsets strictly rising.
FRAME[k] is at offset 0x60 + k, RESP[k] at 0x80 + k (R13). An unlisted byte is one that nothing has written since
reset; it holds no defined value (R33, U1). -/
abbrev Memory := List Host.Cell

/-- What stops the machine with a fault: nothing. MWFC has no trap (R102): every failure of a command is a code in STATUS.ERR
(R95), and an illegal access ends in a transfer error to the host that changes no state (R98), after which the
block goes on. So the type is empty, which is the safe side: no claim about a run is excused by a fault. -/
inductive Fault where
deriving DecidableEq, Repr

/-- Why the model gives an instruction no meaning. -/
inductive Refusal where
  /-- An arm of `exec` whose instruction has no meaning yet raises it. Safe: nothing can be proved of such a step but
  that it is refused. No arm of this model raises it. -/
  | notModelled (mnemonic : String)
deriving DecidableEq, Repr

/-- The result codes STATUS.ERR can hold (R95). -/
inductive ErrCode where
  | ok
  | illegalCmd
  | badArg
  | badLength
  | shortResponse
  | badConfig
deriving DecidableEq, Repr

/-- What one aligned 32-bit access of the register window reaches (R13). `frameWord` and `respWord` name a word of a buffer
by the window offset of its lowest byte. -/
inductive Port where
  | cmd
  | status
  | frameLen
  | respCount
  | crcOrder
  | crcPoly
  | crcInit
  | crcXorOut
  | crcFlags
  | crcInitDirect
  | crcMask
  | crcHighBit
  | crcReg
  | crcResult
  | arg0
  | arg1
  | arg2
  | arg3
  | arg4
  | battStatus
  | battMv
  | frameWord (off : Nat)
  | respWord (off : Nat)
deriving DecidableEq, Repr

/-- What the outside does to the block: one host access (R7, R38), or one assertion and release of the platform's reset
input (R105; log entry 7). `width` is the access's width in bits; a write of another width than 32 carries data nobody reads
(R44; log entry 8). -/
inductive Input where
  | read (off width : Nat)
  | write (off width : Nat) (data : Word)
  | reset
deriving DecidableEq, Repr

/-- How the last host access ended, as the host sees it: no access yet, the 32 bits read, a completed write, or a bus transfer
error (R98). -/
inductive BusResponse where
  | idle
  | readData (w : Word)
  | writeDone
  | busError
deriving DecidableEq, Repr

/-- The state: the registers of R13 (the ones it lists as derived included, R24 to R26), the bytes of FRAME and RESP, and
four fields of the model's own, which R13 does not list: the host's accesses yet to come, the response to the last
one, and the two counters that index the free values of Config. -/
structure State where
  /-- CMD (R17): the last command word written. -/
  cmd : Word
  /-- STATUS.ERR (R18), bits [3:0] of STATUS. -/
  err : BitVec 4
  /-- FRAME_LEN (R31), bits [7:0]. -/
  frameLen : BitVec 8
  /-- RESP_COUNT (R32), bits [7:0]. -/
  respCount : BitVec 8
  /-- CRC_ORDER (R19), bits [5:0]. -/
  crcOrder : BitVec 6
  /-- CRC_POLY (R20). -/
  crcPoly : Word
  /-- CRC_INIT (R21). -/
  crcInit : Word
  /-- CRC_XOROUT (R22). -/
  crcXorOut : Word
  /-- CRC_FLAGS (R23): bit 0 REFIN, bit 1 REFOUT, bit 2 DIRECT. -/
  crcFlags : BitVec 3
  /-- CRC_INIT_DIRECT (R26), derived. -/
  crcInitDirect : Word
  /-- CRC_MASK (R24), derived. -/
  crcMask : Word
  /-- CRC_HIGHBIT (R25), derived. -/
  crcHighBit : Word
  /-- CRC_REG (R29), the running register of the streaming checksum. -/
  crcReg : Word
  /-- CRC_RESULT (R30), the last checksum produced. -/
  crcResult : Word
  /-- ARG0 (R15). -/
  arg0 : Word
  /-- ARG1 (R15). -/
  arg1 : Word
  /-- ARG2 (R15). -/
  arg2 : Word
  /-- ARG3 (R15). -/
  arg3 : Word
  /-- ARG4 (R15). -/
  arg4 : Word
  /-- BATT_STATUS (R35): CHARGER [7:0], CHARGING [15:8], PERCENT [23:16], VALID 24. -/
  battStatus : BitVec 25
  /-- BATT_MV (R36), bits [15:0]. -/
  battMv : BitVec 16
  /-- FRAME and RESP (R33, R34). -/
  mem : Memory
  /-- The model's own: the host's accesses not yet accepted, the next one first (R7, R49; log entry 1). -/
  inbox : List Input
  /-- The model's own: the response to the last access accepted (log entry 1). -/
  bus : BusResponse
  /-- The model's own: how many resets there have been; it indexes `Config.unwrittenByte` (log entry 2). -/
  epoch : Nat
  /-- The model's own: how many undefined checksums there have been; it indexes `Config.undefinedChecksum` (log entry 3). -/
  drawn : Nat
deriving DecidableEq, Repr

/-- The state after reset (R106): every register at the value the spec states, FRAME and RESP with no byte written, and
no host access pending. The values of the model's own fields are log entry 4. -/
def State.reset : State where
  cmd := 0x00000000#32
  err := 0#4
  frameLen := 0#8
  respCount := 0#8
  crcOrder := 16#6
  crcPoly := 0x00001021#32
  crcInit := 0x0000FFFF#32
  crcXorOut := 0x00000000#32
  crcFlags := 5#3
  crcInitDirect := 0x0000FFFF#32
  crcMask := 0x0000FFFF#32
  crcHighBit := 0x00008000#32
  crcReg := 0x0000FFFF#32
  crcResult := 0x00000000#32
  arg0 := 0x00000000#32
  arg1 := 0x00000000#32
  arg2 := 0x00000000#32
  arg3 := 0x00000000#32
  arg4 := 0x00000000#32
  battStatus := 0#25
  battMv := 0#16
  mem := []
  inbox := []
  bus := .idle
  epoch := 0
  drawn := 0

end Sys2Proof.Machine
end

