-- ==== Sys2Proof/Machine/Flags.lean ====
section
/-! DEFINITION. The flags and status fields: STATUS.ERR (R18, R95), CRC_FLAGS (R23) and BATT_STATUS (R35). MWFC has no other
flags and no condition codes (R37). -/

namespace Sys2Proof.Machine

/-- The number of a result code (R95). -/
def errBits : ErrCode → BitVec 4
  | .ok => 0#4
  | .illegalCmd => 1#4
  | .badArg => 2#4
  | .badLength => 3#4
  | .shortResponse => 4#4
  | .badConfig => 5#4

/-- CRC_FLAGS.REFIN, bit 0 (R23). -/
def flagRefIn (s : State) : Bool := s.crcFlags.getLsbD 0

/-- CRC_FLAGS.REFOUT, bit 1 (R23). -/
def flagRefOut (s : State) : Bool := s.crcFlags.getLsbD 1

/-- CRC_FLAGS.DIRECT, bit 2 (R23). -/
def flagDirect (s : State) : Bool := s.crcFlags.getLsbD 2

/-- BATT_STATUS after a response: VALID = 1 and the three bytes as received (R35, R93). -/
def battStatusOf (charger charging percent : Byte) : BitVec 25 := 1#1 ++ percent ++ charging ++ charger

/-- BATT_STATUS.CHARGER, bits [7:0] (R35). -/
def battCharger (s : State) : Byte := s.battStatus.extractLsb' 0 8

/-- BATT_STATUS.CHARGING, bits [15:8] (R35). -/
def battCharging (s : State) : Byte := s.battStatus.extractLsb' 8 8

/-- BATT_STATUS.PERCENT, bits [23:16] (R35). -/
def battPercent (s : State) : Byte := s.battStatus.extractLsb' 16 8

/-- BATT_STATUS.VALID, bit 24 (R35). -/
def battValid (s : State) : Bool := s.battStatus.getLsbD 24

/-- `raise Error(code)` (R11, R96): the command ends, STATUS.ERR takes the code and nothing else changes. This is all the
exception mechanism MWFC has (R102): nothing is saved, no mode changes, there is nothing to return from. -/
def raiseError (e : ErrCode) (s : State) : State := { s with err := errBits e }

/-- A command that completes writes STATUS.ERR <- 0 as its last act (R18, R52 `Execute`). -/
def complete (s : State) : State := { s with err := errBits .ok }

end Sys2Proof.Machine
end

