-- ==== Sys2Proof/Machine/Operands.lean ====
section
/-! DEFINITION. Byte lanes (R41) and every operand field of the table of R54, read as the command starts. Every field is
unsigned and taken as it is from its bits (R55). -/

namespace Sys2Proof.Machine

/-- The four byte lanes of a word, the lowest first (R41). -/
def wordBytes (w : Word) : List Byte :=
  [w.extractLsb' 0 8, w.extractLsb' 8 8, w.extractLsb' 16 8, w.extractLsb' 24 8]

/-- A word from its four byte lanes, `b0` in bits [7:0] (R41). -/
def joinBytes (b0 b1 b2 b3 : Byte) : Word := b3 ++ b2 ++ b1 ++ b0

/-- A one-bit operand as a byte: 1 for true, 0 for false (R80). -/
def bitByte (b : BitVec 1) : Byte := b.setWidth 8

/-- The configuration every command uses (R28). -/
def cfgOf (s : State) : CrcConfig where
  order := s.crcOrder.toNat
  poly := s.crcPoly
  init := s.crcInit
  refIn := flagRefIn s
  refOut := flagRefOut s
  xorOut := s.crcXorOut
  direct := flagDirect s

/-- CRC_FEED byte: ARG0[7:0]. -/
abbrev feedOperand (s : State) : Byte := s.arg0.extractLsb' 0 8

/-- CRC_SPAN start: ARG0[7:0]. -/
abbrev spanStart (s : State) : Byte := s.arg0.extractLsb' 0 8

/-- CRC_SPAN len: ARG0[15:8]. -/
abbrev spanLen (s : State) : Byte := s.arg0.extractLsb' 8 8

/-- ENC_SET_CLOCK year: ARG0[15:0]. -/
abbrev clockYear (s : State) : BitVec 16 := s.arg0.extractLsb' 0 16

/-- ENC_SET_CLOCK month: ARG0[23:16]. -/
abbrev clockMonth (s : State) : Byte := s.arg0.extractLsb' 16 8

/-- ENC_SET_CLOCK date: ARG0[31:24]. -/
abbrev clockDate (s : State) : Byte := s.arg0.extractLsb' 24 8

/-- ENC_SET_CLOCK weekday: ARG1[7:0]. -/
abbrev clockWeekday (s : State) : Byte := s.arg1.extractLsb' 0 8

/-- ENC_SET_CLOCK hour: ARG1[15:8]. -/
abbrev clockHour (s : State) : Byte := s.arg1.extractLsb' 8 8

/-- ENC_SET_CLOCK minute: ARG1[23:16]. -/
abbrev clockMinute (s : State) : Byte := s.arg1.extractLsb' 16 8

/-- ENC_SET_CLOCK second: ARG1[31:24]. -/
abbrev clockSecond (s : State) : Byte := s.arg1.extractLsb' 24 8

/-- ENC_SET_VIBRATION onTime: ARG0[15:0]. -/
abbrev vibrationOn (s : State) : BitVec 16 := s.arg0.extractLsb' 0 16

/-- ENC_SET_VIBRATION offTime: ARG0[31:16]. -/
abbrev vibrationOff (s : State) : BitVec 16 := s.arg0.extractLsb' 16 16

/-- ENC_SET_VIBRATION cycles: ARG1[7:0]. -/
abbrev vibrationCycles (s : State) : Byte := s.arg1.extractLsb' 0 8

/-- ENC_SET_FULLSCREEN enabled: ARG0[0]. -/
abbrev fullscreenEnabled (s : State) : BitVec 1 := s.arg0.extractLsb' 0 1

/-- ENC_UPDATE_DISPLAY rowStart: ARG0[7:0]. -/
abbrev updateRowStart (s : State) : Byte := s.arg0.extractLsb' 0 8

/-- ENC_UPDATE_DISPLAY rowEnd: ARG0[15:8]. -/
abbrev updateRowEnd (s : State) : Byte := s.arg0.extractLsb' 8 8

/-- ENC_UPDATE_DISPLAY page: ARG0[17:16]. -/
abbrev updatePage (s : State) : BitVec 2 := s.arg0.extractLsb' 16 2

/-- ENC_UPDATE_DISPLAY mode: ARG0[19:18]. -/
abbrev updateMode (s : State) : BitVec 2 := s.arg0.extractLsb' 18 2

/-- ENC_UPDATE_DISPLAY style: ARG0[20]. -/
abbrev updateStyle (s : State) : BitVec 1 := s.arg0.extractLsb' 20 1

/-- ENC_UPDATE_DISPLAY bufferSelect: ARG0[21]. -/
abbrev updateBufferSelect (s : State) : BitVec 1 := s.arg0.extractLsb' 21 1

/-- The UpdateDisplay options byte: style in bit 7, bufferSelect in bit 5, page in bits 3-2, mode in bits 1-0, bits 6 and 4
zero (R84, U7). -/
def updateOptions (style bufferSelect : BitVec 1) (page mode : BitVec 2) : Byte :=
  style ++ 0#1 ++ bufferSelect ++ 0#1 ++ page ++ mode

/-- ENC_SET_BACKLIGHT on: ARG0[0]. -/
abbrev backlightOn (s : State) : BitVec 1 := s.arg0.extractLsb' 0 1

/-- ENC_SET_WIDGET_LIST msgIndex: ARG0[1:0]. -/
abbrev widgetMsgIndex (s : State) : BitVec 2 := s.arg0.extractLsb' 0 2

/-- ENC_SET_WIDGET_LIST msgTotal: ARG0[3:2]. -/
abbrev widgetMsgTotal (s : State) : BitVec 2 := s.arg0.extractLsb' 2 2

/-- ENC_SET_WIDGET_LIST pairCount: ARG0[10:8]. -/
abbrev widgetPairCount (s : State) : BitVec 3 := s.arg0.extractLsb' 8 3

/-- The SetWidgetList options byte: msgTotal in bits 3-2, msgIndex in bits 1-0, bits 7-4 zero (R79, R87). -/
def widgetOptions (msgTotal msgIndex : BitVec 2) : Byte := 0#4 ++ msgTotal ++ msgIndex

/-- ENC_SET_WIDGET_LIST pairByte[0], pairByte[1], … : pairByte[k] is byte `k mod 4` of ARG(1 + k div 4) (R54, R41); the command
takes the first `2 * pairCount`. -/
def widgetPairBytes (s : State) : List Byte :=
  wordBytes s.arg1 ++ wordBytes s.arg2 ++ wordBytes s.arg3 ++ wordBytes s.arg4

/-- ENC_CLEAR_SCREEN toBlack: ARG0[0]. -/
abbrev clearToBlack (s : State) : BitVec 1 := s.arg0.extractLsb' 0 1

end Sys2Proof.Machine
end

