-- ==== Sys2Proof/Machine/Ops.lean ====
section
/-! DEFINITION. The named operations over memory, registers and the bus: byte memory (R33, R34), the span checksum with
its free value (R63, R69, U2), the register window (R13, R38 to R41), reset (R105) and accepting one input (R7). The
one exception mechanism, `raiseError`, stands in Flags.lean. -/

namespace Sys2Proof.Machine

/-! ### Fixed parameters (R8) -/

/-- `START_MARKER`, frame byte 0 (R8). -/
abbrev startMarker : Byte := 0x01#8

/-- `FRAME_CAP`, the size of the frame buffer in bytes (R8). -/
abbrev frameCap : Nat := 32

/-- `RESP_CAP`, the size of the response buffer in bytes (R8). -/
abbrev respCap : Nat := 12

/-- `WINDOW_SIZE`, the register window in bytes (R8). -/
abbrev windowSize : Nat := 256

/-- The window offset of FRAME[0] (R13). -/
abbrev frameBase : Nat := 0x60

/-- The window offset of RESP[0] (R13). -/
abbrev respBase : Nat := 0x80

/-! ### Byte memory -/

/-- The byte at window offset `a`, if something has written it since reset. -/
def loadByte : Memory → Nat → Option Byte
  | [], _ => none
  | (k, b) :: rest, a => if k = a then some b else loadByte rest a

/-- Write one byte, keeping the offsets strictly rising. -/
def storeByte : Memory → Nat → Byte → Memory
  | [], a, v => [(a, v)]
  | (k, b) :: rest, a, v =>
    if a < k then (a, v) :: (k, b) :: rest
    else if a = k then (a, v) :: rest
    else (k, b) :: storeByte rest a v

/-- Write consecutive bytes from window offset `a` up, the first lowest. -/
def storeBytes : Memory → Nat → List Byte → Memory
  | m, _, [] => m
  | m, a, b :: rest => storeBytes (storeByte m a b) (a + 1) rest

/-- The `n` bytes from window offset `a` up, or none if one of them has not been written since reset. -/
def loadBytes (m : Memory) (a : Nat) : Nat → Option (List Byte)
  | 0 => some []
  | n + 1 =>
    match loadByte m a, loadBytes m (a + 1) n with
    | some b, some bs => some (b :: bs)
    | _, _ => none

/-- The offset of a byte of FRAME or of RESP (R13, R33, R34). -/
def bufferOffset (a : Nat) : Bool :=
  decide ((frameBase ≤ a ∧ a < frameBase + frameCap) ∨ (respBase ≤ a ∧ a < respBase + respCap))

/-- The one canonical form of a memory: offsets strictly rising, each inside FRAME or RESP. An unlisted byte reads as no defined
value, which no entry equals. -/
def Memory.wf (m : Memory) : Bool :=
  decide (m.Pairwise fun p q => p.1 < q.1) && m.all fun p => bufferOffset p.1

/-- What a read of the byte at window offset `a` gives: the byte written there, or the free value of U1. -/
def readByte (s : State) (a : Nat) : Byte :=
  match loadByte s.mem a with
  | some b => b
  | none => Config.unwrittenByte s.epoch a

/-- FRAME[k] (R33). -/
def frameByte (s : State) (k : Nat) : Byte := readByte s (frameBase + k)

/-- RESP[k] (R34). -/
def respByte (s : State) (k : Nat) : Byte := readByte s (respBase + k)

/-! ### The checksum of a span of FRAME -/

/-- Every byte of FRAME[start .. start + len) has been written since reset (R107 (2)). -/
def spanWritten (s : State) (start len : Nat) : Bool := (loadBytes s.mem (frameBase + start) len).isSome

/-- `Checksum(cfg, FRAME[start .. start + len))` (R63). Over a span with an unwritten byte there is no defined result (U2):
the value is free, but below `2^order` as every CRC_RESULT is (R30). -/
def spanChecksum (s : State) (start len : Nat) : Word :=
  match loadBytes s.mem (frameBase + start) len with
  | some bytes => checksum (cfgOf s) bytes
  | none => Config.undefinedChecksum s.drawn &&& maskOf (cfgOf s).order

/-- Count the free value that `spanChecksum` took, if it took one. -/
def noteDraw (start len : Nat) (s : State) : State :=
  if spanWritten s start len = true then s else { s with drawn := s.drawn + 1 }

/-! ### Registers and the register window -/

/-- `Recompute()` (R27): the derived registers from the configuration as it now stands. -/
def recompute (s : State) : State :=
  { s with
    crcMask := maskOf (cfgOf s).order
    crcHighBit := highBitOf (cfgOf s).order
    crcInitDirect := initDirect (cfgOf s) }

/-- The order values a write to CRC_ORDER accepts, 1 to 32 (R19). -/
def orderLegal (n : BitVec 6) : Bool := 1#6 ≤ n && n ≤ 32#6

/-- `WriteOrder(w)` (R19): a legal order is stored and the derived registers follow; another is refused with BAD_CONFIG. -/
def writeOrder (w : Word) (s : State) : State :=
  let n := w.extractLsb' 0 6
  if orderLegal n = true then complete (recompute { s with crcOrder := n })
  else raiseError .badConfig s

/-- The mapped offsets of the window (R13). -/
def windowMap : List (Nat × Port) :=
  [(0x00, .cmd), (0x04, .status), (0x08, .frameLen), (0x0C, .respCount),
   (0x10, .crcOrder), (0x14, .crcPoly), (0x18, .crcInit), (0x1C, .crcXorOut),
   (0x20, .crcFlags), (0x24, .crcInitDirect), (0x28, .crcMask), (0x2C, .crcHighBit),
   (0x30, .crcReg), (0x34, .crcResult),
   (0x40, .arg0), (0x44, .arg1), (0x48, .arg2), (0x4C, .arg3), (0x50, .arg4),
   (0x54, .battStatus), (0x58, .battMv),
   (0x60, .frameWord 0x60), (0x64, .frameWord 0x64), (0x68, .frameWord 0x68), (0x6C, .frameWord 0x6C),
   (0x70, .frameWord 0x70), (0x74, .frameWord 0x74), (0x78, .frameWord 0x78), (0x7C, .frameWord 0x7C),
   (0x80, .respWord 0x80), (0x84, .respWord 0x84), (0x88, .respWord 0x88)]

/-- What a legal access reaches; none where the access is not legal and ends in BusError (R38, R39, R44): the offset is a
multiple of 4 inside the window, the access is exactly 32 bits wide, and the offset is mapped. -/
def legalPort (off width : Nat) : Option Port :=
  if off % 4 = 0 ∧ off < windowSize ∧ width = 32 then windowMap.lookup off else none

/-- The word a buffer window shows at window offset `a` (R41). -/
def readBuffer (s : State) (a : Nat) : Word :=
  joinBytes (readByte s a) (readByte s (a + 1)) (readByte s (a + 2)) (readByte s (a + 3))

/-- What a host read of a mapped offset returns, reserved bits as 0 (R38 `HostRead`, R40). -/
def readPort (s : State) : Port → Word
  | .cmd => s.cmd
  | .status => s.err.setWidth 32
  | .frameLen => s.frameLen.setWidth 32
  | .respCount => s.respCount.setWidth 32
  | .crcOrder => s.crcOrder.setWidth 32
  | .crcPoly => s.crcPoly
  | .crcInit => s.crcInit
  | .crcXorOut => s.crcXorOut
  | .crcFlags => s.crcFlags.setWidth 32
  | .crcInitDirect => s.crcInitDirect
  | .crcMask => s.crcMask
  | .crcHighBit => s.crcHighBit
  | .crcReg => s.crcReg
  | .crcResult => s.crcResult
  | .arg0 => s.arg0
  | .arg1 => s.arg1
  | .arg2 => s.arg2
  | .arg3 => s.arg3
  | .arg4 => s.arg4
  | .battStatus => s.battStatus.setWidth 32
  | .battMv => s.battMv.setWidth 32
  | .frameWord off => readBuffer s off
  | .respWord off => readBuffer s off

/-- What a host write of a mapped offset stores (R38 `HostWrite`): a read-only register ignores it (R40), reserved bits are
dropped. For CMD this is only the store; the command it starts is run by `step` (R17). -/
def writePort (w : Word) (s : State) : Port → State
  | .cmd => { s with cmd := w }
  | .status => s
  | .frameLen => { s with frameLen := w.extractLsb' 0 8 }
  | .respCount => { s with respCount := w.extractLsb' 0 8 }
  | .crcOrder => writeOrder w s
  | .crcPoly => recompute { s with crcPoly := w }
  | .crcInit => recompute { s with crcInit := w }
  | .crcXorOut => { s with crcXorOut := w }
  | .crcFlags => recompute { s with crcFlags := w.extractLsb' 0 3 }
  | .crcInitDirect => s
  | .crcMask => s
  | .crcHighBit => s
  | .crcReg => s
  | .crcResult => s
  | .arg0 => { s with arg0 := w }
  | .arg1 => { s with arg1 := w }
  | .arg2 => { s with arg2 := w }
  | .arg3 => { s with arg3 := w }
  | .arg4 => { s with arg4 := w }
  | .battStatus => s
  | .battMv => s
  | .frameWord off => { s with mem := storeBytes s.mem off (wordBytes w) }
  | .respWord off => { s with mem := storeBytes s.mem off (wordBytes w) }

/-! ### Accepting one input -/

/-- `HostRead(off)` of the given width, as the host sees it end (R38, R98). -/
def hostRead (s : State) (off width : Nat) : BusResponse :=
  match legalPort off width with
  | some p => .readData (readPort s p)
  | none => .busError

/-- What accepting the next input comes to. -/
inductive Accepted where
  /-- Nothing is pending. -/
  | idle
  /-- The input has had its whole effect, `s`. -/
  | done (s : State)
  /-- `w` has been stored in CMD and its command is to run on `s` (R17). -/
  | command (w : Word) (s : State)
deriving DecidableEq, Repr

/-- `HostWrite(off, w)` of the given width (R38): an illegal access changes nothing but the response (R98), a write of CMD
starts a command, any other write has its whole effect here. -/
def hostWrite (off width : Nat) (w : Word) (s : State) : Accepted :=
  match legalPort off width with
  | none => .done { s with bus := .busError }
  | some .cmd => .command w { writePort w s .cmd with bus := .writeDone }
  | some p => .done { writePort w s p with bus := .writeDone }

/-- The platform's reset (R105): every register takes the value of R106 and every buffer byte is unwritten again. The
host's later accesses stay pending, and the free values are drawn anew (log entries 2 and 7). -/
def platformReset (s : State) : State :=
  { State.reset with inbox := s.inbox, epoch := s.epoch + 1, drawn := s.drawn }

/-- Accept the host's next access, or the reset input (R7, R49: one at a time, in the order they come). -/
def acceptInput (s : State) : Accepted :=
  match s.inbox with
  | [] => .idle
  | .read off width :: rest => .done { s with inbox := rest, bus := hostRead s off width }
  | .write off width w :: rest => hostWrite off width w { s with inbox := rest }
  | .reset :: rest => .done (platformReset { s with inbox := rest })

/-- A word that is no command raises ILLEGAL_CMD, whatever is wrong with it (R52, R56, R95; log entry 10). -/
def rejectCommand : DecodeError → State → State
  | .reservedBitsSet, s => raiseError .illegalCmd s
  | .unknownCode, s => raiseError .illegalCmd s

/-- The command word as the host writes it: a 32-bit write of CMD (R17, R57 `cmd`). -/
def commandWrite (w : Word) : Input := .write 0x00 32 w

/-- The window offset a host address reaches, if it lies in the window at `BASE` (R38, R47; log entry 6). -/
def windowOffset (addr : Nat) : Option Nat :=
  if Config.base ≤ addr ∧ addr < Config.base + windowSize then some (addr - Config.base) else none

end Sys2Proof.Machine
end

