-- ==== Sys2Proof/Machine/Battery.lean ====
section
/-! DEFINITION. The response extractor: the meaning of PARSE_BATTERY (R92, R93). -/

namespace Sys2Proof.Machine

/-- PARSE_BATTERY (R93): offsets 4, 5, 6 are the flag bytes and the percentage, 8 and 9 the voltage, low byte first (R92). -/
def execParseBattery (s : State) : Host.Outcome State Fault Refusal :=
  let n := s.respCount.toNat
  if n < respCap then .next (raiseError .shortResponse s)
  else if n > respCap then .next (raiseError .badLength s)
  else .next (complete { s with
    battStatus := battStatusOf (respByte s 4) (respByte s 5) (respByte s 6)
    battMv := respByte s 9 ++ respByte s 8 })

end Sys2Proof.Machine
end

