-- ==== Sys2Proof/Machine/Finalizer.lean ====
section
/-! DEFINITION. The Frame Finalizer (R73) and the meaning of FINALIZE (R74). -/

namespace Sys2Proof.Machine

/-- `Finalize(cfg, n)` (R73): the checksum of FRAME[0 .. n-2) goes, low byte first, into FRAME[n-2] and FRAME[n-1] (R72) and,
whole, into CRC_RESULT. -/
def finalizeFrame (n : Nat) (s : State) : State :=
  let c := spanChecksum s 0 (n - 2)
  { noteDraw 0 (n - 2) s with
    mem := storeBytes s.mem (frameBase + (n - 2)) [c.extractLsb' 0 8, c.extractLsb' 8 8]
    crcResult := c }

/-- FINALIZE (R74). -/
def execFinalize (s : State) : Host.Outcome State Fault Refusal :=
  let n := s.frameLen.toNat
  if n < 2 ∨ n > frameCap then .next (raiseError .badLength s)
  else .next (complete (finalizeFrame n s))

end Sys2Proof.Machine
end

