-- ==== Sys2Proof/Machine/Builders.lean ====
section
/-! DEFINITION. The shared step `Build` (R77) and the meanings of the ten ENC_* commands (R81 to R90). -/

namespace Sys2Proof.Machine

/-- `Build(n, opc, opt, payload)` (R77): header, options and payload into FRAME, the length into FRAME_LEN, then the
checksum last. `payload` has `n - 6` bytes. -/
def buildFrame (n : Byte) (opc opt : Byte) (payload : List Byte) (s : State) : State :=
  finalizeFrame n.toNat
    { s with
      mem := storeBytes s.mem frameBase (startMarker :: n :: opc :: opt :: payload)
      frameLen := n }

/-- ENC_SET_CLOCK (R81): the year is big-endian. -/
def execEncSetClock (s : State) : Host.Outcome State Fault Refusal :=
  .next (complete (buildFrame 14#8 Config.opcSetClock 0x00#8
    [(clockYear s).extractLsb' 8 8, (clockYear s).extractLsb' 0 8, clockMonth s, clockDate s,
     clockWeekday s, clockHour s, clockMinute s, clockSecond s] s))

/-- ENC_SET_VIBRATION (R82): the enable byte is 1, the times are little-endian. -/
def execEncSetVibration (s : State) : Host.Outcome State Fault Refusal :=
  .next (complete (buildFrame 12#8 Config.opcSetVibration 0x00#8
    [0x01#8, (vibrationOn s).extractLsb' 0 8, (vibrationOn s).extractLsb' 8 8,
     (vibrationOff s).extractLsb' 0 8, (vibrationOff s).extractLsb' 8 8, vibrationCycles s] s))

/-- ENC_SET_FULLSCREEN (R83). -/
def execEncSetFullscreen (s : State) : Host.Outcome State Fault Refusal :=
  .next (complete (buildFrame 6#8 Config.opcSetFullscreen (bitByte (fullscreenEnabled s)) [] s))

/-- ENC_UPDATE_DISPLAY (R84). -/
def execEncUpdateDisplay (s : State) : Host.Outcome State Fault Refusal :=
  .next (complete (buildFrame 8#8 Config.opcUpdateDisplay
    (updateOptions (updateStyle s) (updateBufferSelect s) (updatePage s) (updateMode s))
    [updateRowStart s, updateRowEnd s] s))

/-- ENC_UPDATE_DISPLAY_DEFAULT (R85): page 0, rows 0 to 96, style 1, bufferSelect 1, mode 0. -/
def execEncUpdateDisplayDefault (s : State) : Host.Outcome State Fault Refusal :=
  .next (complete (buildFrame 8#8 Config.opcUpdateDisplay 0xA0#8 [0x00#8, 0x60#8] s))

/-- ENC_SET_BACKLIGHT (R86). -/
def execEncSetBacklight (s : State) : Host.Outcome State Fault Refusal :=
  .next (complete (buildFrame 6#8 Config.opcSetBacklight (bitByte (backlightOn s)) [] s))

/-- ENC_SET_WIDGET_LIST (R87): a pair count of 0 raises BAD_ARG; a 3-bit field cannot exceed 7. -/
def execEncSetWidgetList (s : State) : Host.Outcome State Fault Refusal :=
  let n := (widgetPairCount s).toNat
  if n < 1 ∨ n > 7 then .next (raiseError .badArg s)
  else .next (complete (buildFrame (BitVec.ofNat 8 (6 + 2 * n)) Config.opcSetWidgetList
    (widgetOptions (widgetMsgTotal s) (widgetMsgIndex s)) ((widgetPairBytes s).take (2 * n)) s))

/-- ENC_CLEAR_SCREEN (R88). -/
def execEncClearScreen (s : State) : Host.Outcome State Fault Refusal :=
  .next (complete (buildFrame 7#8 Config.opcClearScreen (bitByte (clearToBlack s)) [Config.idleMode] s))

/-- ENC_GET_BATTERY (R89). -/
def execEncGetBattery (s : State) : Host.Outcome State Fault Refusal :=
  .next (complete (buildFrame 6#8 Config.opcGetBattery 0x00#8 [] s))

/-- ENC_RESET_DEVICE (R90). -/
def execEncResetDevice (s : State) : Host.Outcome State Fault Refusal :=
  .next (complete (buildFrame 6#8 Config.opcResetDevice 0x00#8 [] s))

end Sys2Proof.Machine
end

