-- ==== Sys2Proof/Machine/CrcCommands.lean ====
section
/-! DEFINITION. The meanings of CRC_START, CRC_FEED, CRC_FINAL and CRC_SPAN (R66 to R69). -/

namespace Sys2Proof.Machine

/-- CRC_START (R66). -/
def execCrcStart (s : State) : Host.Outcome State Fault Refusal :=
  .next (complete { s with crcReg := initDirect (cfgOf s) })

/-- CRC_FEED (R67): the register is cut to the order in force before the byte is fed. -/
def execCrcFeed (s : State) : Host.Outcome State Fault Refusal :=
  .next (complete { s with
    crcReg := feedByte (cfgOf s) (s.crcReg &&& maskOf (cfgOf s).order) (feedOperand s) })

/-- CRC_FINAL (R68); CRC_REG is not changed. -/
def execCrcFinal (s : State) : Host.Outcome State Fault Refusal :=
  .next (complete { s with crcResult := output (cfgOf s) s.crcReg })

/-- CRC_SPAN (R69): `start + len` is computed without wrap-around. -/
def execCrcSpan (s : State) : Host.Outcome State Fault Refusal :=
  let start := (spanStart s).toNat
  let len := (spanLen s).toNat
  if start + len > frameCap then .next (raiseError .badLength s)
  else .next (complete { noteDraw start len s with crcResult := spanChecksum s start len })

end Sys2Proof.Machine
end

