-- ==== Sys2Proof/Machine/Dispatch.lean ====
section
/-! DEFINITION. `exec`: one arm per command, each one call of its meaning. -/

namespace Sys2Proof.Machine

def exec (i : Instr) (s : State) : Host.Outcome State Fault Refusal :=
  match i with
  | .crcStart => Sys2Proof.Machine.execCrcStart s
  | .crcFeed => Sys2Proof.Machine.execCrcFeed s
  | .crcFinal => Sys2Proof.Machine.execCrcFinal s
  | .crcSpan => Sys2Proof.Machine.execCrcSpan s
  | .finalize => Sys2Proof.Machine.execFinalize s
  | .encSetClock => Sys2Proof.Machine.execEncSetClock s
  | .encSetVibration => Sys2Proof.Machine.execEncSetVibration s
  | .encSetFullscreen => Sys2Proof.Machine.execEncSetFullscreen s
  | .encUpdateDisplay => Sys2Proof.Machine.execEncUpdateDisplay s
  | .encUpdateDisplayDefault => Sys2Proof.Machine.execEncUpdateDisplayDefault s
  | .encSetBacklight => Sys2Proof.Machine.execEncSetBacklight s
  | .encSetWidgetList => Sys2Proof.Machine.execEncSetWidgetList s
  | .encClearScreen => Sys2Proof.Machine.execEncClearScreen s
  | .encGetBattery => Sys2Proof.Machine.execEncGetBattery s
  | .encResetDevice => Sys2Proof.Machine.execEncResetDevice s
  | .parseBattery => Sys2Proof.Machine.execParseBattery s

end Sys2Proof.Machine
end

