-- ==== Sys2Proof/Machine/Step.lean ====
section
/-! DEFINITION. One step: accept the host's next access and, where it writes CMD, run the command to completion (R7, R17, R45). -/

namespace Sys2Proof.Machine

/-- One step of the block. With nothing pending it stays as it is: there is no background task (R7). -/
def step (s : State) : Host.Outcome State Fault Refusal :=
  match acceptInput s with
  | .idle => .next s
  | .done t => .next t
  | .command w t =>
    match decode w with
    | .ok i => exec i t
    | .error e => .next (rejectCommand e t)

/-- `s` with the host about to write that command word to CMD (log entry 5): MWFC fetches nothing (R16), a command runs because
the host writes CMD. Nothing else of `s` changes; the accesses already pending follow. -/
def State.withFetchWord (s : State) (nbits w : Nat) : State :=
  { s with inbox := commandWrite (tableWord nbits w) :: s.inbox }

end Sys2Proof.Machine
end

