-- ==== Sys2Proof/Machine/MwlReference.lean ====
section
/-! DEFINITION. The algorithm of MWL §4.1 as 40_crc_engine.md quotes it, steps 1 to 6, over registers without any width limit:
nothing is masked before step 6. The machine does not use it. R65 says that masking after every shift step gives the
same checksum, and this is what it is held against. -/

namespace Sys2Proof.Machine

/-- MWL's `reflect`: bit `i` of the result is bit `n-1-i` of `v`, for `i < n` (R58). -/
def mwlReflect (v n : Nat) : Nat :=
  (List.range n).foldl (fun r i => if v.testBit (n - 1 - i) then r + 2 ^ i else r) 0

/-- Step 3 for one input bit: XOR it into the register at the high-bit position, shift left by one, and XOR the polynomial
if the bit that left the high position was set. -/
def mwlShift (cfg : CrcConfig) (reg : Nat) (bit : Bool) : Nat :=
  let fed := reg ^^^ (if bit then 2 ^ (cfg.order - 1) else 0)
  if fed.testBit (cfg.order - 1) then (fed * 2) ^^^ cfg.poly.toNat else fed * 2

/-- Step 1: the direct-form seed, `order` shift steps over the raw initial value where it is in non-direct form. -/
def mwlSeed (cfg : CrcConfig) : Nat :=
  if cfg.direct then cfg.init.toNat
  else (List.range cfg.order).foldl (fun reg _ => mwlShift cfg reg false) cfg.init.toNat

/-- Steps 2 and 3 for one byte: reflect it if asked, then its 8 bits, most significant first. -/
def mwlFeed (cfg : CrcConfig) (reg : Nat) (b : Byte) : Nat :=
  let v := if cfg.refIn then mwlReflect b.toNat 8 else b.toNat
  [7, 6, 5, 4, 3, 2, 1, 0].foldl (fun r j => mwlShift cfg r (v.testBit j)) reg

/-- Steps 4 to 6: reflect the low `order` bits if asked, XOR with `xorOut`, mask to `order` bits. -/
def mwlOutput (cfg : CrcConfig) (reg : Nat) : Nat :=
  ((if cfg.refOut then mwlReflect reg cfg.order else reg) ^^^ cfg.xorOut.toNat) % 2 ^ cfg.order

/-- `computeChecksum(bytes, config)` of MWL §4.1. -/
def mwlChecksum (cfg : CrcConfig) (bytes : List Byte) : Nat :=
  mwlOutput cfg (bytes.foldl (mwlFeed cfg) (mwlSeed cfg))

end Sys2Proof.Machine
end

