-- ==== Sys2Proof/Safety.lean ====
section
/-! DEFINITION. The terms the statements use: the invariant of the machine, what building a frame leaves, and what a command
must leave alone. -/

namespace Sys2Proof.Machine

/-- The invariant of MWFC: what the spec says holds "always", in every state the host can observe. -/
structure State.Inv (s : State) : Prop where
  /-- R19: CRC_ORDER always holds a legal order. -/
  orderLegal : 1 ≤ s.crcOrder.toNat ∧ s.crcOrder.toNat ≤ 32
  /-- R24. -/
  maskDerived : s.crcMask = maskOf s.crcOrder.toNat
  /-- R25. -/
  highBitDerived : s.crcHighBit = highBitOf s.crcOrder.toNat
  /-- R26. -/
  initDirectDerived : s.crcInitDirect = initDirect (cfgOf s)
  /-- R95: the codes 6 to 15 are never produced. -/
  errProduced : s.err.toNat ≤ 5
  /-- R33, R34: only bytes of FRAME and RESP are held, each once. -/
  memCanonical : s.mem.wf = true
  /-- R35, R94: until a PARSE_BATTERY has completed the battery registers hold their reset value. -/
  battUnread : battValid s = false → s.battStatus = 0#25 ∧ s.battMv = 0#16

/-- `t` is `s` after a frame with the checksum span `header` (bytes 0 to N-3 of the frame, R70, R71) has been built in FRAME: the
span is there, the trailer holds bits [15:0] of its checksum, low byte first (R72), FRAME_LEN is N and CRC_RESULT the
checksum, STATUS.ERR is 0, and nothing else has changed (R77). -/
structure BuildsFrame (s t : State) (header : List Byte) : Prop where
  /-- Every register but FRAME_LEN, CRC_RESULT and STATUS.ERR is unchanged. -/
  registers : t = { s with
    mem := t.mem
    frameLen := BitVec.ofNat 8 (header.length + 2)
    crcResult := checksum (cfgOf s) header
    err := 0#4 }
  span : ∀ k b, header[k]? = some b → loadByte t.mem (frameBase + k) = some b
  trailerLow : loadByte t.mem (frameBase + header.length) =
    some ((checksum (cfgOf s) header).extractLsb' 0 8)
  trailerHigh : loadByte t.mem (frameBase + header.length + 1) =
    some ((checksum (cfgOf s) header).extractLsb' 8 8)
  /-- FRAME bytes at index N and above, and RESP, keep their values. -/
  elsewhere : ∀ a, a < frameBase ∨ frameBase + header.length + 2 ≤ a → loadByte t.mem a = loadByte s.mem a

/-- The registers no command writes (R15, R17, R28, R32): CMD, the ARG registers, RESP_COUNT, and the CRC configuration with its
derived registers. -/
structure HostOwnedUnchanged (s t : State) : Prop where
  cmd : t.cmd = s.cmd
  args : t.arg0 = s.arg0 ∧ t.arg1 = s.arg1 ∧ t.arg2 = s.arg2 ∧ t.arg3 = s.arg3 ∧ t.arg4 = s.arg4
  respCount : t.respCount = s.respCount
  config : t.crcOrder = s.crcOrder ∧ t.crcPoly = s.crcPoly ∧ t.crcInit = s.crcInit ∧
    t.crcXorOut = s.crcXorOut ∧ t.crcFlags = s.crcFlags
  derived : t.crcMask = s.crcMask ∧ t.crcHighBit = s.crcHighBit ∧ t.crcInitDirect = s.crcInitDirect

/-- The commands that build a frame (R77): every ENC_* command. -/
def isBuilder : Instr → Bool
  | .encSetClock | .encSetVibration | .encSetFullscreen | .encUpdateDisplay | .encUpdateDisplayDefault
  | .encSetBacklight | .encSetWidgetList | .encClearScreen | .encGetBattery | .encResetDevice => true
  | .crcStart | .crcFeed | .crcFinal | .crcSpan | .finalize | .parseBattery => false

/-- The registers of R13 with the 32-bit value a host read of each returns, reserved bits as 0 (R17 to R26, R29 to R32, R35, R36). -/
def registerReadings (s : State) : List (Nat × Word) :=
  [(0x00, s.cmd), (0x04, 0#28 ++ s.err), (0x08, 0#24 ++ s.frameLen), (0x0C, 0#24 ++ s.respCount),
   (0x10, 0#26 ++ s.crcOrder), (0x14, s.crcPoly), (0x18, s.crcInit), (0x1C, s.crcXorOut),
   (0x20, 0#29 ++ s.crcFlags), (0x24, s.crcInitDirect), (0x28, s.crcMask), (0x2C, s.crcHighBit),
   (0x30, s.crcReg), (0x34, s.crcResult), (0x40, s.arg0), (0x44, s.arg1), (0x48, s.arg2), (0x4C, s.arg3),
   (0x50, s.arg4), (0x54, 0#7 ++ s.battStatus), (0x58, 0#16 ++ s.battMv)]

/-- The registers whose host write only stores, with the state the write of `w` leaves (R15, R22, R31, R32). -/
def plainStores (w : Word) (s : State) : List (Nat × State) :=
  [(0x08, { s with frameLen := w.extractLsb' 0 8 }), (0x0C, { s with respCount := w.extractLsb' 0 8 }),
   (0x1C, { s with crcXorOut := w }), (0x40, { s with arg0 := w }), (0x44, { s with arg1 := w }),
   (0x48, { s with arg2 := w }), (0x4C, { s with arg3 := w }), (0x50, { s with arg4 := w })]

/-- The configuration registers whose host write also recomputes, with the state before the recompute (R20, R21, R23). -/
def configurationStores (w : Word) (s : State) : List (Nat × State) :=
  [(0x14, { s with crcPoly := w }), (0x18, { s with crcInit := w }),
   (0x20, { s with crcFlags := w.extractLsb' 0 3 })]

/-- A run is safe when no step of it ends in a fault or a refusal. -/
def safeStep (s : State) : Prop := ∃ t, step s = .next t

end Sys2Proof.Machine
end

