-- ==== Sys2Proof/Certificates/Slice0/Obligations.lean ====
section
/-! DEFINITION. The statements for the provers. Each docstring names the rule of spec/ that the statement formalises, or says
that it is the model's choice and names the log entry. -/

open Sys2Proof Sys2Proof.Machine

/-! ### Encoding -/

/-- R52, R53: the decoder and the encoder agree in both directions, so no two commands share a word and no other word is
a command. -/
def Obligations.DecodeInvertsEncode : Prop :=
  ∀ (w : Word) (i : Instr), decode w = .ok i ↔ w = encode i

/-- R52 ("The word is legal when RSV = 0 and CODE is listed in rule R53"), with the codes read from R53's list of ILLEGAL codes:
the decoder accepts exactly the well-formed words and refuses exactly the others. -/
def Obligations.DecoderAcceptsExactlyWellFormedWords : Prop :=
  ∀ w : Word,
    ((∃ i, decode w = .ok i) ↔ wordWellFormed w = true) ∧
    ((∃ e, decode w = .error e) ↔ wordWellFormed w = false)

/-- Words written out from R52 and R53, one or two per family, decode to the commands they stand for. -/
def Obligations.SampleWordsDecodeToTheirCommands : Prop :=
  decode 0b00000000000000000000000000000001#32 = .ok .crcStart ∧
  decode 0b00000000000000000000000000000100#32 = .ok .crcSpan ∧
  decode 0b00000000000000000000000000001000#32 = .ok .finalize ∧
  decode 0b00000000000000000000000000010000#32 = .ok .encSetClock ∧
  decode 0b00000000000000000000000000010110#32 = .ok .encSetWidgetList ∧
  decode 0b00000000000000000000000000100000#32 = .ok .parseBattery ∧
  decode 0b00000000000000000000000100010000#32 = .error .reservedBitsSet

/-! ### The step -/

/-- R17, R52: when the host's next access writes a command's word to CMD, the step stores the word in CMD, completes the
write on the bus, and runs that command. -/
def Obligations.StepRunsTheDecodedCommand : Prop :=
  ∀ (s : State) (w : Word) (rest : List Input) (i : Instr),
    s.inbox = .write 0x00 32 w :: rest → decode w = .ok i →
      step s = exec i { s with inbox := rest, cmd := w, bus := .writeDone }

/-- R56: a word written to CMD with RSV ≠ 0 or a CODE not in R53 is stored in CMD, sets STATUS.ERR to 1 (ILLEGAL_CMD) and
changes nothing else. -/
def Obligations.WordThatIsNoCommandSetsOnlyErr : Prop :=
  ∀ (s : State) (w : Word) (rest : List Input),
    s.inbox = .write 0x00 32 w :: rest → wordWellFormed w = false →
      step s = .next { s with inbox := rest, cmd := w, bus := .writeDone, err := 1#4 }

/-- R7 (no background task): with no access pending the block stays exactly as it is. That this is itself a step is the
model's choice (log entry 1). -/
def Obligations.BlockWithNothingPendingIsStill : Prop :=
  ∀ s : State, s.inbox = [] → step s = .next s

/-- The model's choice (log entries 1 and 3): every state has a next state. R96 and R102 give a command's error no stop, but that
an illegal access (U9: "fault") ends as a next state is log entry 1, and that a checksum over an unwritten byte (U2: "fault")
completes is log entry 3; the spec states neither. -/
def Obligations.NoStepStops : Prop := ∀ s : State, safeStep s

/-! ### The CRC functions -/

/-- R58: `Reflect(v, n)` reverses the low `n` bits, stays below `2^n`, and is its own inverse. -/
def Obligations.ReflectReversesTheBits : Prop :=
  ∀ (v : Word) (n : Nat), 1 ≤ n → n ≤ 32 → v.toNat < 2 ^ n →
    (∀ i, i < n → (reflect v n).getLsbD i = v.getLsbD (n - 1 - i)) ∧
    (reflect v n).toNat < 2 ^ n ∧
    reflect (reflect v n) n = v ∧
    (n = 1 → reflect v n = v)

/-- R59 bit by bit: bit `j` of `ShiftStep` is bit `j-1` of the register (0 for `j = 0`), flipped where the feedback bit
`reg[order-1] ^ bit` and the polynomial's bit `j` are both 1; no bit at or above `order` is set. -/
def Obligations.ShiftStepBitByBit : Prop :=
  ∀ (cfg : CrcConfig) (reg : Word) (bit : Bool), 1 ≤ cfg.order → cfg.order ≤ 32 → reg.toNat < 2 ^ cfg.order →
    (∀ j, j < cfg.order → (shiftStep cfg reg bit).getLsbD j =
      ((decide (0 < j) && reg.getLsbD (j - 1)) ^^
        ((reg.getLsbD (cfg.order - 1) ^^ bit) && cfg.poly.getLsbD j))) ∧
    (shiftStep cfg reg bit).toNat < 2 ^ cfg.order

/-- R60: the seed of a direct configuration is CRC_INIT cut to `order` bits; that of a non-direct one is `order` shift steps
with zero bits from there; an initial value of 0 gives 0 for every polynomial and order. -/
def Obligations.SeedOfDirectAndNonDirectForms : Prop :=
  ∀ cfg : CrcConfig, 1 ≤ cfg.order → cfg.order ≤ 32 →
    (cfg.direct = true → initDirect cfg = cfg.init &&& maskOf cfg.order) ∧
    (cfg.direct = false →
      initDirect cfg = (fun reg => shiftStep cfg reg false)^[cfg.order] (cfg.init &&& maskOf cfg.order)) ∧
    (cfg.init = 0#32 → initDirect cfg = 0#32)

/-- R61: eight shift steps, most significant bit first, over the byte, which is reflected first when REFIN is 1. -/
def Obligations.FeedByteIsEightShiftSteps : Prop :=
  ∀ (cfg : CrcConfig) (reg : Word) (b : Byte),
    feedByte cfg reg b =
      if cfg.refIn = true then
        [0, 1, 2, 3, 4, 5, 6, 7].foldl (fun r j => shiftStep cfg r (b.getLsbD j)) reg
      else
        [7, 6, 5, 4, 3, 2, 1, 0].foldl (fun r j => shiftStep cfg r (b.getLsbD j)) reg

/-- R65: masking after every shift step gives the same checksum as MWL's algorithm, which masks once at the end, for every
legal order and every other configuration value and input. -/
def Obligations.MaskingEveryStepEqualsMaskingOnce : Prop :=
  ∀ (cfg : CrcConfig) (bytes : List Byte), 1 ≤ cfg.order → cfg.order ≤ 32 →
    (checksum cfg bytes).toNat = mwlChecksum cfg bytes

/-- R65, last sentence (R20, R21, R22): only the low `order` bits of CRC_POLY, CRC_INIT and CRC_XOROUT affect a result. -/
def Obligations.HighConfigurationBitsDoNotMatter : Prop :=
  ∀ (cfg : CrcConfig) (reg : Word) (b : Byte) (bytes : List Byte) (low : CrcConfig),
    low = { cfg with
      poly := cfg.poly &&& maskOf cfg.order
      init := cfg.init &&& maskOf cfg.order
      xorOut := cfg.xorOut &&& maskOf cfg.order } →
    initDirect low = initDirect cfg ∧ feedByte low reg b = feedByte cfg reg b ∧
      output low reg = output cfg reg ∧ checksum low bytes = checksum cfg bytes

/-! ### The CRC commands -/

/-- R66: CRC_START puts the direct-form seed into CRC_REG, sets STATUS.ERR to 0 and changes nothing else. -/
def Obligations.CrcStartSeedsTheRunningRegister : Prop :=
  encode .crcStart = 0x00000001#32 ∧
  ∀ s : State, exec .crcStart s = .next { s with crcReg := initDirect (cfgOf s), err := 0#4 }

/-- R67: CRC_FEED feeds ARG0[7:0] into CRC_REG, cut to the order in force, under the configuration in force, and changes
nothing else but STATUS.ERR. -/
def Obligations.CrcFeedFeedsOneByte : Prop :=
  encode .crcFeed = 0x00000002#32 ∧
  ∀ s : State, exec .crcFeed s = .next { s with
    crcReg := feedByte (cfgOf s) (s.crcReg &&& maskOf s.crcOrder.toNat) (s.arg0.extractLsb' 0 8)
    err := 0#4 }

/-- R68: CRC_FINAL puts the output of CRC_REG into CRC_RESULT, leaves CRC_REG, and changes nothing else but STATUS.ERR. -/
def Obligations.CrcFinalProducesTheChecksum : Prop :=
  encode .crcFinal = 0x00000003#32 ∧
  ∀ s : State, exec .crcFinal s = .next { s with crcResult := output (cfgOf s) s.crcReg, err := 0#4 }

/-- R63, R66, R67, R68 (and R109): CRC_START begins a stream; if the register is that of a stream of `bytes`, CRC_FEED makes it
that of the stream with one byte more, and CRC_FINAL gives the checksum that R63 gives for `bytes` as a span. -/
def Obligations.StreamedChecksumEqualsSpanChecksum : Prop :=
  (∀ s : State, ∃ t, exec .crcStart s = .next t ∧ cfgOf t = cfgOf s ∧
    t.crcReg = [].foldl (feedByte (cfgOf s)) (initDirect (cfgOf s))) ∧
  ∀ (s : State) (bytes : List Byte),
    s.crcReg = bytes.foldl (feedByte (cfgOf s)) (initDirect (cfgOf s)) →
    (∃ t, exec .crcFeed s = .next t ∧ cfgOf t = cfgOf s ∧
      t.crcReg = (bytes ++ [s.arg0.extractLsb' 0 8]).foldl (feedByte (cfgOf s)) (initDirect (cfgOf s))) ∧
    (∃ t, exec .crcFinal s = .next t ∧ t.crcReg = s.crcReg ∧ t.crcResult = checksum (cfgOf s) bytes)

/-- R69: CRC_SPAN over a span inside FRAME whose bytes have been written puts their checksum into CRC_RESULT and changes
nothing else but STATUS.ERR; a span of length 0 at any start up to 32 is such a span. A span beyond FRAME is refused with
BAD_LENGTH, and nothing but STATUS.ERR changes. -/
def Obligations.CrcSpanChecksumsTheSpan : Prop :=
  encode .crcSpan = 0x00000004#32 ∧
  ∀ (s : State) (start len : Nat) (bytes : List Byte),
    start = (s.arg0.extractLsb' 0 8).toNat → len = (s.arg0.extractLsb' 8 8).toNat →
    (start + len ≤ 32 → bytes.length = len →
      (∀ k b, bytes[k]? = some b → loadByte s.mem (frameBase + start + k) = some b) →
        exec .crcSpan s = .next { s with crcResult := checksum (cfgOf s) bytes, err := 0#4 }) ∧
    (32 < start + len → exec .crcSpan s = .next { s with err := 3#4 })

/-- The model's choice (log entry 3) where the spec gives CRC_SPAN and FINALIZE no defined result (U2, R69, R74): over a span
with an unwritten byte the command completes with SOME checksum of `order` bits, and everything else it does is as the
rules say. -/
def Obligations.UnwrittenSpanStillCompletes : Prop :=
  (∀ s : State, 1 ≤ s.crcOrder.toNat → s.crcOrder.toNat ≤ 32 →
    (s.arg0.extractLsb' 0 8).toNat + (s.arg0.extractLsb' 8 8).toNat ≤ 32 →
    spanWritten s (s.arg0.extractLsb' 0 8).toNat (s.arg0.extractLsb' 8 8).toNat = false →
    ∃ c : Word, c.toNat < 2 ^ s.crcOrder.toNat ∧
      exec .crcSpan s = .next { s with crcResult := c, err := 0#4, drawn := s.drawn + 1 }) ∧
  (∀ s : State, 1 ≤ s.crcOrder.toNat → s.crcOrder.toNat ≤ 32 →
    2 ≤ s.frameLen.toNat → s.frameLen.toNat ≤ 32 → spanWritten s 0 (s.frameLen.toNat - 2) = false →
    ∃ (c : Word) (t : State), c.toNat < 2 ^ s.crcOrder.toNat ∧ exec .finalize s = .next t ∧
      t = { s with mem := t.mem, crcResult := c, err := 0#4, drawn := s.drawn + 1 } ∧
      loadByte t.mem (frameBase + (s.frameLen.toNat - 2)) = some (c.extractLsb' 0 8) ∧
      loadByte t.mem (frameBase + (s.frameLen.toNat - 1)) = some (c.extractLsb' 8 8) ∧
      ∀ a, a ≠ frameBase + (s.frameLen.toNat - 2) → a ≠ frameBase + (s.frameLen.toNat - 1) →
        loadByte t.mem a = loadByte s.mem a)

/-! ### The Frame Finalizer -/

/-- R74 (R73, R71, R72): FINALIZE with 2 ≤ N ≤ 32 over written bytes puts the checksum of FRAME[0 .. N-2) into the two trailer
bytes, low byte first, and into CRC_RESULT; no other byte and no other register but STATUS.ERR changes. With any other N it is
refused with BAD_LENGTH, and nothing but STATUS.ERR changes. -/
def Obligations.FinalizeFillsTheTrailer : Prop :=
  encode .finalize = 0x00000008#32 ∧
  ∀ (s : State) (n : Nat) (bytes : List Byte), n = s.frameLen.toNat →
    (2 ≤ n → n ≤ 32 → bytes.length = n - 2 →
      (∀ k b, bytes[k]? = some b → loadByte s.mem (frameBase + k) = some b) →
      ∃ t, exec .finalize s = .next t ∧
        t = { s with mem := t.mem, crcResult := checksum (cfgOf s) bytes, err := 0#4 } ∧
        loadByte t.mem (frameBase + (n - 2)) = some ((checksum (cfgOf s) bytes).extractLsb' 0 8) ∧
        loadByte t.mem (frameBase + (n - 1)) = some ((checksum (cfgOf s) bytes).extractLsb' 8 8) ∧
        ∀ a, a ≠ frameBase + (n - 2) → a ≠ frameBase + (n - 1) → loadByte t.mem a = loadByte s.mem a) ∧
    (n < 2 ∨ 32 < n → exec .finalize s = .next { s with err := 3#4 })

/-- R75: FINALIZE run again on the frame it has just finalized changes nothing at all. -/
def Obligations.FinalizeTwiceIsFinalizeOnce : Prop :=
  ∀ s t : State, s.Inv → spanWritten s 0 (s.frameLen.toNat - 2) = true →
    exec .finalize s = .next t → t.err = 0#4 → exec .finalize t = .next t

/-- R76: after FINALIZE (over written bytes) or any ENC_* command completes, the checksum of FRAME[0 .. N-2) and the trailer,
read as little-endian, agree; and CRC_SPAN over [0, N-2) gives CRC_RESULT again. -/
def Obligations.FinishedFrameChecksOut : Prop :=
  ∀ (i : Instr) (s t : State),
    (i = .finalize ∧ spanWritten s 0 (s.frameLen.toNat - 2) = true) ∨ isBuilder i = true →
    exec i s = .next t → t.err = 0#4 →
    2 ≤ t.frameLen.toNat ∧ t.frameLen.toNat ≤ 32 ∧
    ∃ bytes lo hi, loadBytes t.mem frameBase (t.frameLen.toNat - 2) = some bytes ∧
      loadByte t.mem (frameBase + (t.frameLen.toNat - 2)) = some lo ∧
      loadByte t.mem (frameBase + (t.frameLen.toNat - 1)) = some hi ∧
      (checksum (cfgOf t) bytes).toNat % 2 ^ 16 = lo.toNat + 256 * hi.toNat ∧
      ∃ u, exec .crcSpan { t with arg0 := BitVec.ofNat 32 ((t.frameLen.toNat - 2) * 256) } = .next u ∧
        u.err = 0#4 ∧ u.crcResult = t.crcResult ∧ u.crcResult = checksum (cfgOf t) bytes

/-! ### The packet builders -/

/-- R81: ENC_SET_CLOCK builds the 14-byte SetClock frame, the year big-endian, the other fields one byte each, none of
them checked. -/
def Obligations.SetClockBuildsItsFrame : Prop :=
  encode .encSetClock = 0x00000010#32 ∧
  ∀ s : State, ∃ t, exec .encSetClock s = .next t ∧ BuildsFrame s t
    [0x01#8, 14#8, Config.opcSetClock, 0x00#8,
     s.arg0.extractLsb' 8 8, s.arg0.extractLsb' 0 8, s.arg0.extractLsb' 16 8, s.arg0.extractLsb' 24 8,
     s.arg1.extractLsb' 0 8, s.arg1.extractLsb' 8 8, s.arg1.extractLsb' 16 8, s.arg1.extractLsb' 24 8]

/-- R82: ENC_SET_VIBRATION builds the 12-byte SetVibration frame: enable 1, on-time and off-time little-endian, cycles. -/
def Obligations.SetVibrationBuildsItsFrame : Prop :=
  encode .encSetVibration = 0x00000011#32 ∧
  ∀ s : State, ∃ t, exec .encSetVibration s = .next t ∧ BuildsFrame s t
    [0x01#8, 12#8, Config.opcSetVibration, 0x00#8, 0x01#8,
     s.arg0.extractLsb' 0 8, s.arg0.extractLsb' 8 8, s.arg0.extractLsb' 16 8, s.arg0.extractLsb' 24 8,
     s.arg1.extractLsb' 0 8]

/-- R83: ENC_SET_FULLSCREEN builds a 6-byte frame whose options byte is 1 when ARG0[0] is set and 0 when it is not. -/
def Obligations.SetFullscreenBuildsItsFrame : Prop :=
  encode .encSetFullscreen = 0x00000012#32 ∧
  ∀ s : State, ∃ t, exec .encSetFullscreen s = .next t ∧ BuildsFrame s t
    [0x01#8, 6#8, Config.opcSetFullscreen, if s.arg0.getLsbD 0 = true then 0x01#8 else 0x00#8]

/-- R84: ENC_UPDATE_DISPLAY builds the 8-byte UpdateDisplay frame; the options byte packs style, bufferSelect, page and mode at
bits 7, 5, 3-2 and 1-0. -/
def Obligations.UpdateDisplayBuildsItsFrame : Prop :=
  encode .encUpdateDisplay = 0x00000013#32 ∧
  ∀ s : State, ∃ t, exec .encUpdateDisplay s = .next t ∧ BuildsFrame s t
    [0x01#8, 8#8, Config.opcUpdateDisplay,
     ((s.arg0.extractLsb' 20 1).setWidth 8 <<< 7) ||| ((s.arg0.extractLsb' 21 1).setWidth 8 <<< 5) |||
       ((s.arg0.extractLsb' 16 2).setWidth 8 <<< 2) ||| (s.arg0.extractLsb' 18 2).setWidth 8,
     s.arg0.extractLsb' 0 8, s.arg0.extractLsb' 8 8]

/-- R85: ENC_UPDATE_DISPLAY_DEFAULT builds the UpdateDisplay frame with options 0xA0 and rows 0 to 96, and "The result equals
ENC_UPDATE_DISPLAY with ARG0 = 0x00306000": the two commands reach the same state but for ARG0. -/
def Obligations.UpdateDisplayDefaultBuildsItsFrame : Prop :=
  encode .encUpdateDisplayDefault = 0x00000014#32 ∧
  ∀ s : State, ∃ t u, exec .encUpdateDisplayDefault s = .next t ∧
    BuildsFrame s t [0x01#8, 8#8, Config.opcUpdateDisplay, 0xA0#8, 0x00#8, 0x60#8] ∧
    exec .encUpdateDisplay { s with arg0 := 0x00306000#32 } = .next u ∧ u = { t with arg0 := 0x00306000#32 }

/-- R86: ENC_SET_BACKLIGHT builds a 6-byte frame whose options byte is 1 when ARG0[0] is set and 0 when it is not. -/
def Obligations.SetBacklightBuildsItsFrame : Prop :=
  encode .encSetBacklight = 0x00000015#32 ∧
  ∀ s : State, ∃ t, exec .encSetBacklight s = .next t ∧ BuildsFrame s t
    [0x01#8, 6#8, Config.opcSetBacklight, if s.arg0.getLsbD 0 = true then 0x01#8 else 0x00#8]

/-- R87: ENC_SET_WIDGET_LIST with a pair count n of 1 to 7 builds a frame of 6 + 2n bytes: msgTotal and msgIndex in the options
byte, and at payload byte k, for every k below 2n, pairByte[k] of R54, byte k mod 4 of ARG(1 + k div 4). A pair count of 0 is
refused with BAD_ARG, and nothing but STATUS.ERR changes. -/
def Obligations.SetWidgetListBuildsItsFrame : Prop :=
  encode .encSetWidgetList = 0x00000016#32 ∧
  ∀ (s : State) (n : Nat), n = (s.arg0.extractLsb' 8 3).toNat →
    (1 ≤ n → ∃ t, exec .encSetWidgetList s = .next t ∧ BuildsFrame s t
      ([0x01#8, BitVec.ofNat 8 (6 + 2 * n), Config.opcSetWidgetList,
        ((s.arg0.extractLsb' 2 2).setWidth 8 <<< 2) ||| (s.arg0.extractLsb' 0 2).setWidth 8] ++
        (List.range (2 * n)).map fun k =>
          ([s.arg1, s.arg2, s.arg3, s.arg4].getD (k / 4) 0#32).extractLsb' (8 * (k % 4)) 8)) ∧
    (n = 0 → exec .encSetWidgetList s = .next { s with err := 2#4 })

/-- R88: ENC_CLEAR_SCREEN builds a 7-byte frame: options byte ARG0[0], payload the idle-mode byte. -/
def Obligations.ClearScreenBuildsItsFrame : Prop :=
  encode .encClearScreen = 0x00000017#32 ∧
  ∀ s : State, ∃ t, exec .encClearScreen s = .next t ∧ BuildsFrame s t
    [0x01#8, 7#8, Config.opcClearScreen, (if s.arg0.getLsbD 0 = true then 0x01#8 else 0x00#8), Config.idleMode]

/-- R89: ENC_GET_BATTERY builds the 6-byte query frame with options 0. -/
def Obligations.GetBatteryBuildsItsFrame : Prop :=
  encode .encGetBattery = 0x00000018#32 ∧
  ∀ s : State, ∃ t, exec .encGetBattery s = .next t ∧
    BuildsFrame s t [0x01#8, 6#8, Config.opcGetBattery, 0x00#8]

/-- R90: ENC_RESET_DEVICE builds the 6-byte frame with options 0; it resets nothing in the block. -/
def Obligations.ResetDeviceBuildsItsFrame : Prop :=
  encode .encResetDevice = 0x00000019#32 ∧
  ∀ s : State, ∃ t, exec .encResetDevice s = .next t ∧
    BuildsFrame s t [0x01#8, 6#8, Config.opcResetDevice, 0x00#8]

/-! ### The response extractor -/

/-- R93 (R92): with RESP_COUNT = 12 PARSE_BATTERY sets VALID and stores RESP[6], RESP[5], RESP[4] in BATT_STATUS and RESP[9],
RESP[8] in BATT_MV, as received; nothing else but STATUS.ERR changes. With RESP_COUNT < 12 it is refused with SHORT_RESPONSE,
with RESP_COUNT > 12 with BAD_LENGTH, and nothing but STATUS.ERR changes. No premise says that RESP has been written (R107 (3)):
that PARSE_BATTERY over a never written RESP byte completes and stores the free value a host read of it gives is the model's
choice, log entry 2. -/
def Obligations.ParseBatteryStoresTheResponse : Prop :=
  encode .parseBattery = 0x00000020#32 ∧
  ∀ s : State,
    (s.respCount.toNat = 12 →
      ∃ t, exec .parseBattery s = .next t ∧
        t = { s with battStatus := t.battStatus, battMv := t.battMv, err := 0#4 } ∧
        battValid t = true ∧
        t.battStatus.extractLsb' 0 8 = readByte s (respBase + 4) ∧
        t.battStatus.extractLsb' 8 8 = readByte s (respBase + 5) ∧
        t.battStatus.extractLsb' 16 8 = readByte s (respBase + 6) ∧
        t.battMv.extractLsb' 0 8 = readByte s (respBase + 8) ∧
        t.battMv.extractLsb' 8 8 = readByte s (respBase + 9)) ∧
    (s.respCount.toNat < 12 → exec .parseBattery s = .next { s with err := 4#4 }) ∧
    (12 < s.respCount.toNat → exec .parseBattery s = .next { s with err := 3#4 })

/-! ### Errors -/

/-- R96: whatever the command, if STATUS.ERR is not 0 after it, then nothing but STATUS.ERR has changed. That every command
answers a next state from every state is not R96's: for CRC_SPAN and FINALIZE over a span with an unwritten byte (U2), and
for PARSE_BATTERY over an unwritten RESP byte (U1), it is the model's choice, log entries 3 and 2. -/
def Obligations.RefusedCommandChangesOnlyErr : Prop :=
  ∀ (i : Instr) (s : State), ∃ t, exec i s = .next t ∧ (t.err ≠ 0#4 → t = { s with err := t.err })

/-- R95, columns "code" and "raised by" for the commands: which command can leave which code. That the code is 0 after a command over
a span or response with an unwritten byte is the model's choice, log entries 3 and 2. -/
def Obligations.ErrorCodesComeFromTheirCommands : Prop :=
  ∀ (i : Instr) (s t : State), exec i s = .next t →
    t.err = 0#4 ∨
    (t.err = 2#4 ∧ i = .encSetWidgetList) ∨
    (t.err = 3#4 ∧ (i = .crcSpan ∨ i = .finalize ∨ i = .parseBattery)) ∨
    (t.err = 4#4 ∧ i = .parseBattery)

/-- R18: reads, resets apart, and host writes other than to CMD and CRC_ORDER leave STATUS.ERR as it is. -/
def Obligations.OtherAccessesLeaveErr : Prop :=
  ∀ (s t : State) (x : Input) (rest : List Input),
    s.inbox = x :: rest → step s = .next t →
    ((∃ off width, x = .read off width) ∨
      (∃ off width w, x = .write off width w ∧ off ≠ 0x00 ∧ off ≠ 0x10)) →
    t.err = s.err

/-! ### What commands may write -/

/-- R15 ("No command ever writes them"), R17, R28, R32: no command writes CMD, an ARG register, RESP_COUNT or any register of
the CRC configuration. -/
def Obligations.CommandsLeaveTheHostsRegisters : Prop :=
  ∀ (i : Instr) (s t : State), exec i s = .next t → HostOwnedUnchanged s t

/-- R29: CRC_REG is written only by CRC_START and CRC_FEED, and after either it is below `2^order`. -/
def Obligations.RunningRegisterHasTwoWriters : Prop :=
  ∀ (i : Instr) (s t : State), 1 ≤ s.crcOrder.toNat → s.crcOrder.toNat ≤ 32 → exec i s = .next t →
    (i ≠ .crcStart → i ≠ .crcFeed → t.crcReg = s.crcReg) ∧
    (i = .crcStart ∨ i = .crcFeed → t.crcReg.toNat < 2 ^ s.crcOrder.toNat)

/-- R30: CRC_RESULT is written only by CRC_FINAL, CRC_SPAN, FINALIZE and the ENC_* commands, and what any of them writes is
below `2^order` (over an unwritten span too, where the value is free: log entry 3). -/
def Obligations.ResultIsBelowTwoToTheOrder : Prop :=
  ∀ (i : Instr) (s t : State), 1 ≤ s.crcOrder.toNat → s.crcOrder.toNat ≤ 32 → exec i s = .next t →
    (i = .crcStart ∨ i = .crcFeed ∨ i = .parseBattery → t.crcResult = s.crcResult) ∧
    (i = .crcFinal → t.crcResult.toNat < 2 ^ s.crcOrder.toNat) ∧
    (i = .crcSpan ∨ i = .finalize ∨ isBuilder i = true → t.err = 0#4 →
      t.crcResult.toNat < 2 ^ s.crcOrder.toNat)

/-- R33, R34, R31: a command never writes a byte outside FRAME (so RESP is the host's alone), only FINALIZE and the ENC_*
commands write FRAME, and only the ENC_* commands write FRAME_LEN. -/
def Obligations.CommandsWriteOnlyTheFrame : Prop :=
  ∀ (i : Instr) (s t : State), exec i s = .next t →
    (∀ a, a < frameBase ∨ frameBase + frameCap ≤ a → loadByte t.mem a = loadByte s.mem a) ∧
    (i ≠ .finalize → isBuilder i = false → t.mem = s.mem) ∧
    (isBuilder i = false → t.frameLen = s.frameLen)

/-- R94: PARSE_BATTERY is the only writer of BATT_STATUS and BATT_MV: a step that changes either accepted a reset, or a 32-bit
write of 0x00000020 to CMD. -/
def Obligations.OnlyParseBatteryWritesTheBattery : Prop :=
  ∀ s t : State, step s = .next t → (t.battStatus ≠ s.battStatus ∨ t.battMv ≠ s.battMv) →
    ∃ rest, s.inbox = .reset :: rest ∨ s.inbox = .write 0x00 32 0x00000020#32 :: rest

/-- R64: no checksum of CRC_SPAN, FINALIZE or an ENC_* command depends on CRC_REG, CRC_RESULT, STATUS.ERR, CMD, RESP_COUNT or
the battery registers: two states that differ only in these get the same CRC_RESULT and the same FRAME. For CRC_SPAN and FINALIZE
over a span with an unwritten byte, whose checksum U2 leaves undefined, that the two agree is the model's choice: the free value of
log entry 3 depends on `drawn` alone, which the two states share. -/
def Obligations.SpanChecksumsDependOnNothingHidden : Prop :=
  ∀ (i : Instr) (s s' t t' : State), i = .crcSpan ∨ i = .finalize ∨ isBuilder i = true →
    s' = { s with
      crcReg := s'.crcReg
      crcResult := s'.crcResult
      err := s'.err
      cmd := s'.cmd
      respCount := s'.respCount
      battStatus := s'.battStatus
      battMv := s'.battMv } →
    exec i s = .next t → exec i s' = .next t' →
    t'.err = t.err ∧ t'.mem = t.mem ∧ (t.err = 0#4 → t'.crcResult = t.crcResult)

/-! ### The register window -/

/-- R38 `HostRead` of the registers of R13, reserved bits as 0; R46: a read changes nothing but the response on the bus. -/
def Obligations.HostReadsRegisters : Prop :=
  ∀ (s : State) (rest : List Input) (off : Nat) (v : Word),
    s.inbox = .read off 32 :: rest →
    (off, v) ∈ registerReadings s →
    step s = .next { s with inbox := rest, bus := .readData v }

/-- R41 and R46: a read of a buffer word changes nothing but the response, and returns the four bytes, the lowest in bits [7:0];
a byte that nothing has written reads as some byte (U1, log entry 2), so only written bytes are named. -/
def Obligations.HostReadsBuffersLittleEndian : Prop :=
  ∀ (s : State) (rest : List Input) (off : Nat),
    s.inbox = .read off 32 :: rest →
    ((∃ k, k < 8 ∧ off = frameBase + 4 * k) ∨ (∃ k, k < 3 ∧ off = respBase + 4 * k)) →
    ∃ v : Word, step s = .next { s with inbox := rest, bus := .readData v } ∧
      ∀ j b, j < 4 → loadByte s.mem (off + j) = some b → v.extractLsb' (8 * j) 8 = b

/-- R38 `HostWrite` of the registers that only store: FRAME_LEN and RESP_COUNT take w[7:0] (R31, R32), CRC_XOROUT and
ARG0 to ARG4 take w (R22, R15); nothing else changes. -/
def Obligations.HostWritesPlainRegisters : Prop :=
  ∀ (s : State) (rest : List Input) (off : Nat) (w : Word) (t : State),
    s.inbox = .write off 32 w :: rest →
    (off, t) ∈ plainStores w s →
    step s = .next { t with inbox := rest, bus := .writeDone }

/-- R20, R21, R23, R27 (R24, R25, R26): a write of CRC_POLY, CRC_INIT or CRC_FLAGS stores the value and, in the same access,
recomputes the three derived registers from the configuration as it now stands; nothing else changes, CRC_REG and
CRC_RESULT included. -/
def Obligations.HostWritesOfTheConfigurationRecompute : Prop :=
  ∀ (s : State) (rest : List Input) (off : Nat) (w : Word) (t : State),
    s.inbox = .write off 32 w :: rest →
    (off, t) ∈ configurationStores w s →
    step s = .next { t with
      inbox := rest
      bus := .writeDone
      crcMask := BitVec.ofNat 32 (2 ^ t.crcOrder.toNat - 1)
      crcHighBit := 1#32 <<< (t.crcOrder.toNat - 1)
      crcInitDirect := initDirect
        { order := t.crcOrder.toNat
          poly := t.crcPoly
          init := t.crcInit
          refIn := t.crcFlags.getLsbD 0
          refOut := t.crcFlags.getLsbD 1
          xorOut := t.crcXorOut
          direct := t.crcFlags.getLsbD 2 } }

/-- R19: a write of CRC_ORDER with 1 ≤ w[5:0] ≤ 32 stores w[5:0], recomputes the derived registers and sets STATUS.ERR to 0;
any other value sets STATUS.ERR to 5 and changes nothing else. -/
def Obligations.HostWritesOfOrderAreChecked : Prop :=
  ∀ (s : State) (rest : List Input) (w : Word),
    s.inbox = .write 0x10 32 w :: rest →
    (1 ≤ (w.extractLsb' 0 6).toNat ∧ (w.extractLsb' 0 6).toNat ≤ 32 →
      step s = .next { s with
        inbox := rest
        bus := .writeDone
        crcOrder := w.extractLsb' 0 6
        crcMask := BitVec.ofNat 32 (2 ^ (w.extractLsb' 0 6).toNat - 1)
        crcHighBit := 1#32 <<< ((w.extractLsb' 0 6).toNat - 1)
        crcInitDirect := initDirect { cfgOf s with order := (w.extractLsb' 0 6).toNat }
        err := 0#4 }) ∧
    ((w.extractLsb' 0 6).toNat = 0 ∨ 32 < (w.extractLsb' 0 6).toNat →
      step s = .next { s with inbox := rest, bus := .writeDone, err := 5#4 })

/-- R41 with R38 `HostWrite`: a write of a buffer word puts w[7:0] into its lowest byte and so on up, changes no other byte and no
register, and reads back as written. -/
def Obligations.HostWritesBuffersLittleEndian : Prop :=
  ∀ (s : State) (rest : List Input) (off : Nat) (w : Word),
    s.inbox = .write off 32 w :: rest →
    ((∃ k, k < 8 ∧ off = frameBase + 4 * k) ∨ (∃ k, k < 3 ∧ off = respBase + 4 * k)) →
    ∃ t, step s = .next t ∧ t = { s with inbox := rest, bus := .writeDone, mem := t.mem } ∧
      (∀ j, j < 4 → loadByte t.mem (off + j) = some (w.extractLsb' (8 * j) 8)) ∧
      (∀ a, a < off ∨ off + 4 ≤ a → loadByte t.mem a = loadByte s.mem a) ∧
      hostRead t off 32 = .readData w

/-- R40: a write of a read-only register completes without error and changes no state. -/
def Obligations.WritesOfReadOnlyRegistersAreIgnored : Prop :=
  ∀ (s : State) (rest : List Input) (off : Nat) (w : Word),
    s.inbox = .write off 32 w :: rest → off ∈ [0x04, 0x24, 0x28, 0x2C, 0x30, 0x34, 0x54, 0x58] →
    step s = .next { s with inbox := rest, bus := .writeDone }

/-- R39, R44, R98: an access of another width than 32, at an offset that is no multiple of 4, outside the window, or at a
reserved offset ends in BusError and changes no state, STATUS.ERR included. (`inbox` and `bus` are the model's own fields for the
host's side of the bus, log entry 1.) -/
def Obligations.IllegalAccessesEndInBusError : Prop :=
  ∀ (s : State) (rest : List Input) (off width : Nat) (w : Word),
    (s.inbox = .read off width :: rest ∨ s.inbox = .write off width w :: rest) →
    (width ≠ 32 ∨ off % 4 ≠ 0 ∨ off = 0x38 ∨ off = 0x3C ∨ off = 0x5C ∨ 0x8C ≤ off) →
    step s = .next { s with inbox := rest, bus := .busError }

/-- A host write anywhere but CMD, legal or not, keeps CRC_REG and CRC_RESULT (R27 and R109 for the configuration, R29 and R30 for
their only writers), CMD (R17) and the battery registers (R94): outside the configuration a legal write only stores its own
value (R38, R46) or is ignored (R40), and an illegal one changes no state (R98). `epoch` and `drawn` are fields of the model's
own (log entries 2 and 3), and that such a write keeps them is the model's choice. -/
def Obligations.NonCommandWritesKeepResults : Prop :=
  ∀ (s t : State) (rest : List Input) (off width : Nat) (w : Word),
    s.inbox = .write off width w :: rest → off ≠ 0x00 → step s = .next t →
    t.crcReg = s.crcReg ∧ t.crcResult = s.crcResult ∧ t.cmd = s.cmd ∧ t.battStatus = s.battStatus ∧
      t.battMv = s.battMv ∧ t.epoch = s.epoch ∧ t.drawn = s.drawn

/-! ### Reset and the invariant -/

/-- R106: the state after reset, register by register; no byte of FRAME or RESP has been written. -/
def Obligations.ResetValuesAreThoseOfTheTable : Prop :=
  State.reset.cmd = 0x00000000#32 ∧ State.reset.err = 0#4 ∧ State.reset.frameLen = 0#8 ∧
  State.reset.respCount = 0#8 ∧ State.reset.crcOrder = 16#6 ∧ State.reset.crcPoly = 0x00001021#32 ∧
  State.reset.crcInit = 0x0000FFFF#32 ∧ State.reset.crcXorOut = 0x00000000#32 ∧
  State.reset.crcFlags = 0b101#3 ∧ State.reset.crcInitDirect = 0x0000FFFF#32 ∧
  State.reset.crcMask = 0x0000FFFF#32 ∧ State.reset.crcHighBit = 0x00008000#32 ∧
  State.reset.crcReg = 0x0000FFFF#32 ∧ State.reset.crcResult = 0x00000000#32 ∧
  State.reset.arg0 = 0#32 ∧ State.reset.arg1 = 0#32 ∧ State.reset.arg2 = 0#32 ∧
  State.reset.arg3 = 0#32 ∧ State.reset.arg4 = 0#32 ∧
  State.reset.battStatus = 0#25 ∧ State.reset.battMv = 0#16 ∧
  ∀ a, loadByte State.reset.mem a = none

/-- R105: when the reset input is released every register has the value it has after reset and no buffer byte counts as written.
That a reset is an input between two accesses, keeps the later accesses pending and draws the free values anew is the
model's choice (log entries 2 and 7). -/
def Obligations.PlatformResetRestoresTheResetState : Prop :=
  ∀ (s : State) (rest : List Input), s.inbox = .reset :: rest →
    step s = .next { State.reset with inbox := rest, epoch := s.epoch + 1, drawn := s.drawn }

/-- The invariant holds right after reset. -/
def Obligations.ResetMeetsTheStateInvariant : Prop := State.reset.Inv

/-- R19, R24, R25, R26, R27, R33, R34, R35, R94, R95: from EVERY state that meets it, reachable or not, every step keeps the
invariant: CRC_ORDER legal, the derived registers equal to what the configuration gives, STATUS.ERR one of the codes,
the memory canonical, and the battery registers 0 until a response has been parsed. -/
def Obligations.EveryStepKeepsTheStateInvariant : Prop :=
  ∀ s t : State, s.Inv → step s = .next t → t.Inv
end

