-- ==== Sys2Proof/Laws/Crc.lean ====
section
/-! SUPPORT. Laws of the CRC functions: masks, the bits of a reflected value, and that every value stays below `2^order`. -/

namespace Sys2Proof.Machine

theorem maskOf_toNat {n : Nat} (h : n ≤ 32) : (maskOf n).toNat = 2 ^ n - 1 := by
  have : 2 ^ n ≤ 2 ^ 32 := Nat.pow_le_pow_right (by omega) h
  rw [maskOf, BitVec.toNat_ofNat, Nat.mod_eq_of_lt (by omega)]

theorem maskOf_getLsbD {n : Nat} (h : n ≤ 32) (i : Nat) : (maskOf n).getLsbD i = decide (i < n) := by
  rw [← BitVec.testBit_toNat, maskOf_toNat h, Nat.testBit_two_pow_sub_one]

theorem and_maskOf_toNat {n : Nat} (h : n ≤ 32) (x : Word) : (x &&& maskOf n).toNat = x.toNat % 2 ^ n := by
  rw [BitVec.toNat_and, maskOf_toNat h, Nat.and_two_pow_sub_one_eq_mod]

theorem and_maskOf_lt {n : Nat} (h : n ≤ 32) (x : Word) : (x &&& maskOf n).toNat < 2 ^ n := by
  rw [and_maskOf_toNat h]; exact Nat.mod_lt _ (Nat.two_pow_pos n)

theorem and_maskOf_of_lt {n : Nat} (h : n ≤ 32) {x : Word} (hx : x.toNat < 2 ^ n) : x &&& maskOf n = x := by
  apply BitVec.eq_of_toNat_eq
  rw [and_maskOf_toNat h, Nat.mod_eq_of_lt hx]

theorem and_maskOf_idem (n : Nat) (x : Word) : x &&& maskOf n &&& maskOf n = x &&& maskOf n := by
  rw [BitVec.and_assoc, BitVec.and_self]

/-- Bit `i` of the low `k` bits of `Reflect(v, n)`. -/
theorem reflectBelow_getLsbD (v : Word) (n k i : Nat) (hk : k ≤ 32) :
    (reflectBelow v n k).getLsbD i = (decide (i < k) && v.getLsbD (n - 1 - i)) := by
  induction k with
  | zero => simp [reflectBelow]
  | succ k ih =>
    rw [reflectBelow, BitVec.getLsbD_or, ih (by omega)]
    have hone : (if v.getLsbD (n - 1 - k) = true then BitVec.twoPow 32 k else 0#32).getLsbD i =
        (decide (i = k) && v.getLsbD (n - 1 - k)) := by
      split
      · rename_i hb
        rw [BitVec.getLsbD_twoPow, hb]
        by_cases hik : i = k
        · subst hik; simp; omega
        · simp [hik, Ne.symm hik]
      · rename_i hb
        simp [hb]
    rw [hone]
    by_cases hik : i = k
    · subst hik; simp
    · have : decide (i < k + 1) = decide (i < k) := by simp; omega
      rw [this]; simp [hik]

/-- Bit `i` of `Reflect(v, n)` (R58). -/
theorem reflect_getLsbD (v : Word) (n i : Nat) (hn : n ≤ 32) :
    (reflect v n).getLsbD i = (decide (i < n) && v.getLsbD (n - 1 - i)) :=
  reflectBelow_getLsbD v n n i hn

theorem reflect_lt (v : Word) (n : Nat) (hn : n ≤ 32) : (reflect v n).toNat < 2 ^ n := by
  apply Nat.lt_pow_two_of_testBit
  intro i hi
  rw [BitVec.testBit_toNat, reflect_getLsbD v n i hn]
  simp; omega

/-- A shift step leaves a register of `order` bits. -/
theorem shiftStep_masked (cfg : CrcConfig) (reg : Word) (bit : Bool) :
    shiftStep cfg reg bit &&& maskOf cfg.order = shiftStep cfg reg bit := by
  unfold shiftStep
  ext i hi
  split <;> simp only [BitVec.getElem_and, BitVec.getElem_xor] <;> grind

theorem feedBits_masked (cfg : CrcConfig) (v : Word) (k : Nat) (reg : Word)
    (h : reg &&& maskOf cfg.order = reg) : feedBits cfg v k reg &&& maskOf cfg.order = feedBits cfg v k reg := by
  induction k generalizing reg with
  | zero => exact h
  | succ k ih => exact ih _ (shiftStep_masked cfg reg _)

theorem shiftZeros_masked (cfg : CrcConfig) (k : Nat) (reg : Word)
    (h : reg &&& maskOf cfg.order = reg) : shiftZeros cfg k reg &&& maskOf cfg.order = shiftZeros cfg k reg := by
  induction k generalizing reg with
  | zero => exact h
  | succ k ih => exact ih _ (shiftStep_masked cfg reg _)

theorem feedByte_masked (cfg : CrcConfig) (reg : Word) (b : Byte)
    (h : reg &&& maskOf cfg.order = reg) : feedByte cfg reg b &&& maskOf cfg.order = feedByte cfg reg b :=
  feedBits_masked cfg _ 8 reg h

theorem initDirect_masked (cfg : CrcConfig) : initDirect cfg &&& maskOf cfg.order = initDirect cfg := by
  unfold initDirect
  split
  · exact and_maskOf_idem _ _
  · exact shiftZeros_masked cfg _ _ (and_maskOf_idem _ _)

theorem output_masked (cfg : CrcConfig) (reg : Word) :
    output cfg reg &&& maskOf cfg.order = output cfg reg := and_maskOf_idem _ _

theorem foldl_feedByte_masked (cfg : CrcConfig) (bytes : List Byte) (reg : Word)
    (h : reg &&& maskOf cfg.order = reg) :
    bytes.foldl (feedByte cfg) reg &&& maskOf cfg.order = bytes.foldl (feedByte cfg) reg := by
  induction bytes generalizing reg with
  | nil => exact h
  | cons b rest ih => exact ih _ (feedByte_masked cfg reg b h)

theorem checksum_masked (cfg : CrcConfig) (bytes : List Byte) :
    checksum cfg bytes &&& maskOf cfg.order = checksum cfg bytes := output_masked cfg _

/-- The seed does not depend on the output XOR mask, so a write of CRC_XOROUT leaves CRC_INIT_DIRECT right (R26, R27). -/
theorem initDirect_xorOut (cfg : CrcConfig) (x : Word) : initDirect { cfg with xorOut := x } = initDirect cfg := by
  have hz : ∀ k reg, shiftZeros { cfg with xorOut := x } k reg = shiftZeros cfg k reg := by
    intro k
    induction k with
    | zero => intro reg; rfl
    | succ k ih => intro reg; exact ih _
  unfold initDirect
  rw [hz]

/-- A register of `order` bits is below `2^order`. -/
theorem lt_of_masked {n : Nat} (h : n ≤ 32) {x : Word} (hx : x &&& maskOf n = x) : x.toNat < 2 ^ n :=
  hx ▸ and_maskOf_lt h x

end Sys2Proof.Machine
end

