-- ==== Sys2Proof/Laws/Memory.lean ====
section
/-! SUPPORT. Laws of the byte memory: read after write, and that writes keep the canonical form. -/

namespace Sys2Proof.Machine

@[simp] theorem loadByte_storeByte_same (m : Memory) (a : Nat) (v : Byte) :
    loadByte (storeByte m a v) a = some v := by
  induction m with
  | nil => simp [storeByte, loadByte]
  | cons p rest ih =>
    obtain ⟨k, b⟩ := p
    by_cases h1 : a < k
    · simp [storeByte, loadByte, h1]
    · by_cases h2 : a = k
      · simp [storeByte, loadByte, h2]
      · simp [storeByte, loadByte, h1, h2, Ne.symm h2, ih]

theorem loadByte_storeByte_other (m : Memory) {a c : Nat} (v : Byte) (h : c ≠ a) :
    loadByte (storeByte m a v) c = loadByte m c := by
  induction m with
  | nil => simp [storeByte, loadByte, Ne.symm h]
  | cons p rest ih =>
    obtain ⟨k, b⟩ := p
    by_cases h1 : a < k
    · simp [storeByte, loadByte, h1, Ne.symm h]
    · by_cases h2 : a = k
      · subst h2; simp [storeByte, loadByte, Ne.symm h]
      · simp [storeByte, loadByte, h1, h2, ih]

/-- What one byte reads as after a byte write. -/
theorem loadByte_storeByte (m : Memory) (a c : Nat) (v : Byte) :
    loadByte (storeByte m a v) c = if c = a then some v else loadByte m c := by
  by_cases h : c = a
  · simp [h]
  · simp [h, loadByte_storeByte_other m v h]

/-- What one byte reads as after consecutive bytes are written: the written byte inside, the old one outside. -/
theorem loadByte_storeBytes (m : Memory) (a : Nat) (bs : List Byte) (c : Nat) :
    loadByte (storeBytes m a bs) c =
      if a ≤ c ∧ c < a + bs.length then bs[c - a]? else loadByte m c := by
  induction bs generalizing m a with
  | nil =>
    have h : ¬ (a ≤ c ∧ c < a + ([] : List Byte).length) := by simp
    rw [if_neg h]; rfl
  | cons b rest ih =>
    rw [storeBytes, ih, loadByte_storeByte]
    simp only [List.length_cons]
    by_cases h1 : a + 1 ≤ c ∧ c < a + 1 + rest.length
    · have h2 : a ≤ c ∧ c < a + (rest.length + 1) := by omega
      rw [if_pos h1, if_pos h2, show c - a = (c - (a + 1)) + 1 by omega, List.getElem?_cons_succ]
    · by_cases h3 : c = a
      · subst h3; simp
      · have h2 : ¬ (a ≤ c ∧ c < a + (rest.length + 1)) := by omega
        rw [if_neg h1, if_neg h2, if_neg h3]

theorem loadByte_storeBytes_inside (m : Memory) (a : Nat) (bs : List Byte) (k : Nat) (b : Byte)
    (h : bs[k]? = some b) : loadByte (storeBytes m a bs) (a + k) = some b := by
  have hk : k < bs.length := (List.getElem?_eq_some_iff.mp h).1
  rw [loadByte_storeBytes, if_pos (by omega), Nat.add_sub_cancel_left, h]

theorem loadByte_storeBytes_outside (m : Memory) (a : Nat) (bs : List Byte) (c : Nat)
    (h : c < a ∨ a + bs.length ≤ c) : loadByte (storeBytes m a bs) c = loadByte m c := by
  rw [loadByte_storeBytes, if_neg (by omega)]

/-- Loading `n` bytes answers `bs` exactly when each of the `n` bytes reads as the entry of `bs`. -/
theorem loadBytes_eq_some_iff (m : Memory) (a n : Nat) (bs : List Byte) :
    loadBytes m a n = some bs ↔
      bs.length = n ∧ ∀ k b, bs[k]? = some b → loadByte m (a + k) = some b := by
  induction n generalizing a bs with
  | zero =>
    cases bs with
    | nil => simp [loadBytes]
    | cons b rest => simp [loadBytes]
  | succ n ih =>
    constructor
    · intro h
      unfold loadBytes at h
      split at h
      · rename_i b cs hb hcs
        obtain rfl := Option.some.inj h
        obtain ⟨hl, hk⟩ := (ih (a + 1) cs).mp hcs
        refine ⟨by simp [hl], fun k c hc => ?_⟩
        cases k with
        | zero => simp at hc; simpa [hc] using hb
        | succ k => rw [show a + (k + 1) = a + 1 + k by omega]; exact hk k c (by simpa using hc)
      · cases h
    · rintro ⟨hl, hk⟩
      cases bs with
      | nil => simp at hl
      | cons b rest =>
        have hb := hk 0 b (by simp)
        have hr : loadBytes m (a + 1) n = some rest :=
          (ih (a + 1) rest).mpr ⟨by simpa using hl, fun k c hc => by
            rw [show a + 1 + k = a + (k + 1) by omega]; exact hk (k + 1) c (by simpa using hc)⟩
        simp only [Nat.add_zero] at hb
        simp [loadBytes, hb, hr]

/-- Bytes outside what is loaded do not matter. -/
theorem loadBytes_congr (m m' : Memory) (a n : Nat)
    (h : ∀ k, k < n → loadByte m (a + k) = loadByte m' (a + k)) : loadBytes m a n = loadBytes m' a n := by
  induction n generalizing a with
  | zero => rfl
  | succ n ih =>
    have h0 := h 0 (by omega)
    rw [Nat.add_zero] at h0
    rw [loadBytes, loadBytes, h0, ih (a + 1) fun k hk => by
      rw [show a + 1 + k = a + (k + 1) by omega]; exact h (k + 1) (by omega)]

/-- The bytes just written load back. -/
theorem loadBytes_storeBytes_same (m : Memory) (a : Nat) (bs : List Byte) :
    loadBytes (storeBytes m a bs) a bs.length = some bs :=
  (loadBytes_eq_some_iff _ _ _ _).mpr ⟨rfl, loadByte_storeBytes_inside m a bs⟩

/-- A loaded span is the same after a write that does not touch it. -/
theorem loadBytes_storeBytes_disjoint (m : Memory) (a n c : Nat) (bs : List Byte)
    (h : a + n ≤ c ∨ c + bs.length ≤ a) : loadBytes (storeBytes m c bs) a n = loadBytes m a n :=
  loadBytes_congr _ _ _ _ fun k hk => loadByte_storeBytes_outside m c bs (a + k) (by omega)

/-- The offsets of FRAME and RESP (R13). -/
theorem bufferOffset_iff (a : Nat) :
    bufferOffset a = true ↔ (0x60 ≤ a ∧ a < 0x80) ∨ (0x80 ≤ a ∧ a < 0x8C) := by
  rw [bufferOffset, decide_eq_true_eq]
  rfl

/-- Splitting the canonical form of a memory with a first entry. -/
theorem wf_cons (k : Nat) (b : Byte) (m : Memory) :
    Memory.wf ((k, b) :: m) = true ↔
      (∀ p ∈ m, k < p.1) ∧ bufferOffset k = true ∧ Memory.wf m = true := by
  simp only [Memory.wf, List.pairwise_cons, List.all_cons, Bool.and_eq_true, decide_eq_true_eq]
  tauto

/-- The entries after a byte write: the written one, and old ones. -/
theorem mem_storeByte (m : Memory) (a : Nat) (v : Byte) (p : Host.Cell) (h : p ∈ storeByte m a v) :
    p = (a, v) ∨ p ∈ m := by
  induction m with
  | nil => simpa [storeByte] using h
  | cons q rest ih =>
    obtain ⟨k, b⟩ := q
    unfold storeByte at h
    split at h
    · simpa using h
    · split at h
      · rcases List.mem_cons.mp h with h | h
        · exact .inl h
        · exact .inr (List.mem_cons_of_mem _ h)
      · rcases List.mem_cons.mp h with h | h
        · exact .inr (h ▸ List.mem_cons_self)
        · rcases ih h with h | h
          · exact .inl h
          · exact .inr (List.mem_cons_of_mem _ h)

/-- A byte write inside FRAME or RESP keeps the canonical form. -/
theorem storeByte_wf (m : Memory) (a : Nat) (v : Byte) (ha : bufferOffset a = true)
    (hm : Memory.wf m = true) : Memory.wf (storeByte m a v) = true := by
  induction m with
  | nil => exact (wf_cons a v []).mpr ⟨by simp, ha, rfl⟩
  | cons q rest ih =>
    obtain ⟨k, b⟩ := q
    obtain ⟨h1, h2, h3⟩ := (wf_cons k b rest).mp hm
    unfold storeByte
    split
    · rename_i hlt
      refine (wf_cons a v _).mpr ⟨fun p hp => ?_, ha, hm⟩
      rcases List.mem_cons.mp hp with rfl | hp
      · exact hlt
      · exact Nat.lt_trans hlt (h1 p hp)
    · split
      · rename_i _ heq
        exact (wf_cons a v rest).mpr ⟨heq ▸ h1, ha, h3⟩
      · refine (wf_cons k b _).mpr ⟨fun p hp => ?_, h2, ih h3⟩
        rcases mem_storeByte rest a v p hp with rfl | hp
        · show k < a
          omega
        · exact h1 p hp

/-- Writing consecutive bytes inside FRAME or RESP keeps the canonical form. -/
theorem storeBytes_wf (m : Memory) (a : Nat) (bs : List Byte)
    (ha : ∀ k, k < bs.length → bufferOffset (a + k) = true) (hm : Memory.wf m = true) :
    Memory.wf (storeBytes m a bs) = true := by
  induction bs generalizing m a with
  | nil => exact hm
  | cons b rest ih =>
    refine ih (storeByte m a b) (a + 1) (fun k hk => ?_)
      (storeByte_wf m a b (by simpa using ha 0 (by simp)) hm)
    have := ha (k + 1) (by simpa using hk)
    rwa [show a + (k + 1) = a + 1 + k by omega] at this

/-- In a canonical memory, writing the byte that is already there changes nothing. -/
theorem storeByte_of_loadByte (m : Memory) (a : Nat) (v : Byte) (hm : Memory.wf m = true)
    (h : loadByte m a = some v) : storeByte m a v = m := by
  induction m with
  | nil => cases h
  | cons q rest ih =>
    obtain ⟨k, b⟩ := q
    obtain ⟨h1, _, h3⟩ := (wf_cons k b rest).mp hm
    by_cases hk : k = a
    · subst hk
      obtain rfl : b = v := by simpa [loadByte] using h
      simp [storeByte]
    · have hr : loadByte rest a = some v := by simpa [loadByte, hk] using h
      have hmem : ∃ w, (a, w) ∈ rest := by
        clear ih h h1 h3 hm
        induction rest with
        | nil => cases hr
        | cons p ps ihp =>
          obtain ⟨k', b'⟩ := p
          by_cases hk' : k' = a
          · exact ⟨b', hk' ▸ List.mem_cons_self⟩
          · obtain ⟨w, hw⟩ := ihp (by simpa [loadByte, hk'] using hr)
            exact ⟨w, List.mem_cons_of_mem _ hw⟩
      obtain ⟨w, hw⟩ := hmem
      have hlt : k < a := h1 _ hw
      rw [storeByte, if_neg (by omega), if_neg (Ne.symm hk), ih h3 hr]

@[simp] theorem reset_mem_wf : Memory.wf State.reset.mem = true := rfl

end Sys2Proof.Machine
end

