-- ==== Sys2Proof/Laws/State.lean ====
section
/-! SUPPORT. One lemma per field for each named update of the state, so that no later proof unfolds a record update. -/

namespace Sys2Proof.Machine

/-! ### raiseError -/

@[simp] theorem raiseError_cmd (e : ErrCode) (s : State) : (raiseError e s).cmd = s.cmd := rfl
@[simp] theorem raiseError_err (e : ErrCode) (s : State) : (raiseError e s).err = errBits e := rfl
@[simp] theorem raiseError_frameLen (e : ErrCode) (s : State) : (raiseError e s).frameLen = s.frameLen := rfl
@[simp] theorem raiseError_respCount (e : ErrCode) (s : State) : (raiseError e s).respCount = s.respCount := rfl
@[simp] theorem raiseError_crcOrder (e : ErrCode) (s : State) : (raiseError e s).crcOrder = s.crcOrder := rfl
@[simp] theorem raiseError_crcPoly (e : ErrCode) (s : State) : (raiseError e s).crcPoly = s.crcPoly := rfl
@[simp] theorem raiseError_crcInit (e : ErrCode) (s : State) : (raiseError e s).crcInit = s.crcInit := rfl
@[simp] theorem raiseError_crcXorOut (e : ErrCode) (s : State) : (raiseError e s).crcXorOut = s.crcXorOut := rfl
@[simp] theorem raiseError_crcFlags (e : ErrCode) (s : State) : (raiseError e s).crcFlags = s.crcFlags := rfl
@[simp] theorem raiseError_crcInitDirect (e : ErrCode) (s : State) : (raiseError e s).crcInitDirect = s.crcInitDirect := rfl
@[simp] theorem raiseError_crcMask (e : ErrCode) (s : State) : (raiseError e s).crcMask = s.crcMask := rfl
@[simp] theorem raiseError_crcHighBit (e : ErrCode) (s : State) : (raiseError e s).crcHighBit = s.crcHighBit := rfl
@[simp] theorem raiseError_crcReg (e : ErrCode) (s : State) : (raiseError e s).crcReg = s.crcReg := rfl
@[simp] theorem raiseError_crcResult (e : ErrCode) (s : State) : (raiseError e s).crcResult = s.crcResult := rfl
@[simp] theorem raiseError_arg0 (e : ErrCode) (s : State) : (raiseError e s).arg0 = s.arg0 := rfl
@[simp] theorem raiseError_arg1 (e : ErrCode) (s : State) : (raiseError e s).arg1 = s.arg1 := rfl
@[simp] theorem raiseError_arg2 (e : ErrCode) (s : State) : (raiseError e s).arg2 = s.arg2 := rfl
@[simp] theorem raiseError_arg3 (e : ErrCode) (s : State) : (raiseError e s).arg3 = s.arg3 := rfl
@[simp] theorem raiseError_arg4 (e : ErrCode) (s : State) : (raiseError e s).arg4 = s.arg4 := rfl
@[simp] theorem raiseError_battStatus (e : ErrCode) (s : State) : (raiseError e s).battStatus = s.battStatus := rfl
@[simp] theorem raiseError_battMv (e : ErrCode) (s : State) : (raiseError e s).battMv = s.battMv := rfl
@[simp] theorem raiseError_mem (e : ErrCode) (s : State) : (raiseError e s).mem = s.mem := rfl
@[simp] theorem raiseError_inbox (e : ErrCode) (s : State) : (raiseError e s).inbox = s.inbox := rfl
@[simp] theorem raiseError_bus (e : ErrCode) (s : State) : (raiseError e s).bus = s.bus := rfl
@[simp] theorem raiseError_epoch (e : ErrCode) (s : State) : (raiseError e s).epoch = s.epoch := rfl
@[simp] theorem raiseError_drawn (e : ErrCode) (s : State) : (raiseError e s).drawn = s.drawn := rfl

/-! ### complete -/

@[simp] theorem complete_cmd (s : State) : (complete s).cmd = s.cmd := rfl
@[simp] theorem complete_err (s : State) : (complete s).err = 0#4 := rfl
@[simp] theorem complete_frameLen (s : State) : (complete s).frameLen = s.frameLen := rfl
@[simp] theorem complete_respCount (s : State) : (complete s).respCount = s.respCount := rfl
@[simp] theorem complete_crcOrder (s : State) : (complete s).crcOrder = s.crcOrder := rfl
@[simp] theorem complete_crcPoly (s : State) : (complete s).crcPoly = s.crcPoly := rfl
@[simp] theorem complete_crcInit (s : State) : (complete s).crcInit = s.crcInit := rfl
@[simp] theorem complete_crcXorOut (s : State) : (complete s).crcXorOut = s.crcXorOut := rfl
@[simp] theorem complete_crcFlags (s : State) : (complete s).crcFlags = s.crcFlags := rfl
@[simp] theorem complete_crcInitDirect (s : State) : (complete s).crcInitDirect = s.crcInitDirect := rfl
@[simp] theorem complete_crcMask (s : State) : (complete s).crcMask = s.crcMask := rfl
@[simp] theorem complete_crcHighBit (s : State) : (complete s).crcHighBit = s.crcHighBit := rfl
@[simp] theorem complete_crcReg (s : State) : (complete s).crcReg = s.crcReg := rfl
@[simp] theorem complete_crcResult (s : State) : (complete s).crcResult = s.crcResult := rfl
@[simp] theorem complete_arg0 (s : State) : (complete s).arg0 = s.arg0 := rfl
@[simp] theorem complete_arg1 (s : State) : (complete s).arg1 = s.arg1 := rfl
@[simp] theorem complete_arg2 (s : State) : (complete s).arg2 = s.arg2 := rfl
@[simp] theorem complete_arg3 (s : State) : (complete s).arg3 = s.arg3 := rfl
@[simp] theorem complete_arg4 (s : State) : (complete s).arg4 = s.arg4 := rfl
@[simp] theorem complete_battStatus (s : State) : (complete s).battStatus = s.battStatus := rfl
@[simp] theorem complete_battMv (s : State) : (complete s).battMv = s.battMv := rfl
@[simp] theorem complete_mem (s : State) : (complete s).mem = s.mem := rfl
@[simp] theorem complete_inbox (s : State) : (complete s).inbox = s.inbox := rfl
@[simp] theorem complete_bus (s : State) : (complete s).bus = s.bus := rfl
@[simp] theorem complete_epoch (s : State) : (complete s).epoch = s.epoch := rfl
@[simp] theorem complete_drawn (s : State) : (complete s).drawn = s.drawn := rfl

/-! ### recompute -/

@[simp] theorem recompute_cmd (s : State) : (recompute s).cmd = s.cmd := rfl
@[simp] theorem recompute_err (s : State) : (recompute s).err = s.err := rfl
@[simp] theorem recompute_frameLen (s : State) : (recompute s).frameLen = s.frameLen := rfl
@[simp] theorem recompute_respCount (s : State) : (recompute s).respCount = s.respCount := rfl
@[simp] theorem recompute_crcOrder (s : State) : (recompute s).crcOrder = s.crcOrder := rfl
@[simp] theorem recompute_crcPoly (s : State) : (recompute s).crcPoly = s.crcPoly := rfl
@[simp] theorem recompute_crcInit (s : State) : (recompute s).crcInit = s.crcInit := rfl
@[simp] theorem recompute_crcXorOut (s : State) : (recompute s).crcXorOut = s.crcXorOut := rfl
@[simp] theorem recompute_crcFlags (s : State) : (recompute s).crcFlags = s.crcFlags := rfl
@[simp] theorem recompute_crcInitDirect (s : State) : (recompute s).crcInitDirect = initDirect (cfgOf s) := rfl
@[simp] theorem recompute_crcMask (s : State) : (recompute s).crcMask = maskOf (cfgOf s).order := rfl
@[simp] theorem recompute_crcHighBit (s : State) : (recompute s).crcHighBit = highBitOf (cfgOf s).order := rfl
@[simp] theorem recompute_crcReg (s : State) : (recompute s).crcReg = s.crcReg := rfl
@[simp] theorem recompute_crcResult (s : State) : (recompute s).crcResult = s.crcResult := rfl
@[simp] theorem recompute_arg0 (s : State) : (recompute s).arg0 = s.arg0 := rfl
@[simp] theorem recompute_arg1 (s : State) : (recompute s).arg1 = s.arg1 := rfl
@[simp] theorem recompute_arg2 (s : State) : (recompute s).arg2 = s.arg2 := rfl
@[simp] theorem recompute_arg3 (s : State) : (recompute s).arg3 = s.arg3 := rfl
@[simp] theorem recompute_arg4 (s : State) : (recompute s).arg4 = s.arg4 := rfl
@[simp] theorem recompute_battStatus (s : State) : (recompute s).battStatus = s.battStatus := rfl
@[simp] theorem recompute_battMv (s : State) : (recompute s).battMv = s.battMv := rfl
@[simp] theorem recompute_mem (s : State) : (recompute s).mem = s.mem := rfl
@[simp] theorem recompute_inbox (s : State) : (recompute s).inbox = s.inbox := rfl
@[simp] theorem recompute_bus (s : State) : (recompute s).bus = s.bus := rfl
@[simp] theorem recompute_epoch (s : State) : (recompute s).epoch = s.epoch := rfl
@[simp] theorem recompute_drawn (s : State) : (recompute s).drawn = s.drawn := rfl

/-! ### platformReset -/

@[simp] theorem platformReset_cmd (s : State) : (platformReset s).cmd = State.reset.cmd := rfl
@[simp] theorem platformReset_err (s : State) : (platformReset s).err = State.reset.err := rfl
@[simp] theorem platformReset_frameLen (s : State) : (platformReset s).frameLen = State.reset.frameLen := rfl
@[simp] theorem platformReset_respCount (s : State) : (platformReset s).respCount = State.reset.respCount := rfl
@[simp] theorem platformReset_crcOrder (s : State) : (platformReset s).crcOrder = State.reset.crcOrder := rfl
@[simp] theorem platformReset_crcPoly (s : State) : (platformReset s).crcPoly = State.reset.crcPoly := rfl
@[simp] theorem platformReset_crcInit (s : State) : (platformReset s).crcInit = State.reset.crcInit := rfl
@[simp] theorem platformReset_crcXorOut (s : State) : (platformReset s).crcXorOut = State.reset.crcXorOut := rfl
@[simp] theorem platformReset_crcFlags (s : State) : (platformReset s).crcFlags = State.reset.crcFlags := rfl
@[simp] theorem platformReset_crcInitDirect (s : State) : (platformReset s).crcInitDirect = State.reset.crcInitDirect := rfl
@[simp] theorem platformReset_crcMask (s : State) : (platformReset s).crcMask = State.reset.crcMask := rfl
@[simp] theorem platformReset_crcHighBit (s : State) : (platformReset s).crcHighBit = State.reset.crcHighBit := rfl
@[simp] theorem platformReset_crcReg (s : State) : (platformReset s).crcReg = State.reset.crcReg := rfl
@[simp] theorem platformReset_crcResult (s : State) : (platformReset s).crcResult = State.reset.crcResult := rfl
@[simp] theorem platformReset_arg0 (s : State) : (platformReset s).arg0 = State.reset.arg0 := rfl
@[simp] theorem platformReset_arg1 (s : State) : (platformReset s).arg1 = State.reset.arg1 := rfl
@[simp] theorem platformReset_arg2 (s : State) : (platformReset s).arg2 = State.reset.arg2 := rfl
@[simp] theorem platformReset_arg3 (s : State) : (platformReset s).arg3 = State.reset.arg3 := rfl
@[simp] theorem platformReset_arg4 (s : State) : (platformReset s).arg4 = State.reset.arg4 := rfl
@[simp] theorem platformReset_battStatus (s : State) : (platformReset s).battStatus = State.reset.battStatus := rfl
@[simp] theorem platformReset_battMv (s : State) : (platformReset s).battMv = State.reset.battMv := rfl
@[simp] theorem platformReset_mem (s : State) : (platformReset s).mem = State.reset.mem := rfl
@[simp] theorem platformReset_inbox (s : State) : (platformReset s).inbox = s.inbox := rfl
@[simp] theorem platformReset_bus (s : State) : (platformReset s).bus = State.reset.bus := rfl
@[simp] theorem platformReset_epoch (s : State) : (platformReset s).epoch = s.epoch + 1 := rfl
@[simp] theorem platformReset_drawn (s : State) : (platformReset s).drawn = s.drawn := rfl

/-! ### noteDraw -/

@[simp] theorem noteDraw_cmd (start len : Nat) (s : State) : (noteDraw start len s).cmd = s.cmd := by
  unfold noteDraw; split <;> rfl
@[simp] theorem noteDraw_err (start len : Nat) (s : State) : (noteDraw start len s).err = s.err := by
  unfold noteDraw; split <;> rfl
@[simp] theorem noteDraw_frameLen (start len : Nat) (s : State) : (noteDraw start len s).frameLen = s.frameLen := by
  unfold noteDraw; split <;> rfl
@[simp] theorem noteDraw_respCount (start len : Nat) (s : State) : (noteDraw start len s).respCount = s.respCount := by
  unfold noteDraw; split <;> rfl
@[simp] theorem noteDraw_crcOrder (start len : Nat) (s : State) : (noteDraw start len s).crcOrder = s.crcOrder := by
  unfold noteDraw; split <;> rfl
@[simp] theorem noteDraw_crcPoly (start len : Nat) (s : State) : (noteDraw start len s).crcPoly = s.crcPoly := by
  unfold noteDraw; split <;> rfl
@[simp] theorem noteDraw_crcInit (start len : Nat) (s : State) : (noteDraw start len s).crcInit = s.crcInit := by
  unfold noteDraw; split <;> rfl
@[simp] theorem noteDraw_crcXorOut (start len : Nat) (s : State) : (noteDraw start len s).crcXorOut = s.crcXorOut := by
  unfold noteDraw; split <;> rfl
@[simp] theorem noteDraw_crcFlags (start len : Nat) (s : State) : (noteDraw start len s).crcFlags = s.crcFlags := by
  unfold noteDraw; split <;> rfl
@[simp] theorem noteDraw_crcInitDirect (start len : Nat) (s : State) : (noteDraw start len s).crcInitDirect = s.crcInitDirect := by
  unfold noteDraw; split <;> rfl
@[simp] theorem noteDraw_crcMask (start len : Nat) (s : State) : (noteDraw start len s).crcMask = s.crcMask := by
  unfold noteDraw; split <;> rfl
@[simp] theorem noteDraw_crcHighBit (start len : Nat) (s : State) : (noteDraw start len s).crcHighBit = s.crcHighBit := by
  unfold noteDraw; split <;> rfl
@[simp] theorem noteDraw_crcReg (start len : Nat) (s : State) : (noteDraw start len s).crcReg = s.crcReg := by
  unfold noteDraw; split <;> rfl
@[simp] theorem noteDraw_crcResult (start len : Nat) (s : State) : (noteDraw start len s).crcResult = s.crcResult := by
  unfold noteDraw; split <;> rfl
@[simp] theorem noteDraw_arg0 (start len : Nat) (s : State) : (noteDraw start len s).arg0 = s.arg0 := by
  unfold noteDraw; split <;> rfl
@[simp] theorem noteDraw_arg1 (start len : Nat) (s : State) : (noteDraw start len s).arg1 = s.arg1 := by
  unfold noteDraw; split <;> rfl
@[simp] theorem noteDraw_arg2 (start len : Nat) (s : State) : (noteDraw start len s).arg2 = s.arg2 := by
  unfold noteDraw; split <;> rfl
@[simp] theorem noteDraw_arg3 (start len : Nat) (s : State) : (noteDraw start len s).arg3 = s.arg3 := by
  unfold noteDraw; split <;> rfl
@[simp] theorem noteDraw_arg4 (start len : Nat) (s : State) : (noteDraw start len s).arg4 = s.arg4 := by
  unfold noteDraw; split <;> rfl
@[simp] theorem noteDraw_battStatus (start len : Nat) (s : State) : (noteDraw start len s).battStatus = s.battStatus := by
  unfold noteDraw; split <;> rfl
@[simp] theorem noteDraw_battMv (start len : Nat) (s : State) : (noteDraw start len s).battMv = s.battMv := by
  unfold noteDraw; split <;> rfl
@[simp] theorem noteDraw_mem (start len : Nat) (s : State) : (noteDraw start len s).mem = s.mem := by
  unfold noteDraw; split <;> rfl
@[simp] theorem noteDraw_inbox (start len : Nat) (s : State) : (noteDraw start len s).inbox = s.inbox := by
  unfold noteDraw; split <;> rfl
@[simp] theorem noteDraw_bus (start len : Nat) (s : State) : (noteDraw start len s).bus = s.bus := by
  unfold noteDraw; split <;> rfl
@[simp] theorem noteDraw_epoch (start len : Nat) (s : State) : (noteDraw start len s).epoch = s.epoch := by
  unfold noteDraw; split <;> rfl

theorem noteDraw_of_written (start len : Nat) (s : State) (h : spanWritten s start len = true) :
    noteDraw start len s = s := by simp [noteDraw, h]

/-! ### finalizeFrame -/

@[simp] theorem finalizeFrame_cmd (n : Nat) (s : State) : (finalizeFrame n s).cmd = s.cmd := by
  simp [finalizeFrame]
@[simp] theorem finalizeFrame_err (n : Nat) (s : State) : (finalizeFrame n s).err = s.err := by
  simp [finalizeFrame]
@[simp] theorem finalizeFrame_frameLen (n : Nat) (s : State) : (finalizeFrame n s).frameLen = s.frameLen := by
  simp [finalizeFrame]
@[simp] theorem finalizeFrame_respCount (n : Nat) (s : State) : (finalizeFrame n s).respCount = s.respCount := by
  simp [finalizeFrame]
@[simp] theorem finalizeFrame_crcOrder (n : Nat) (s : State) : (finalizeFrame n s).crcOrder = s.crcOrder := by
  simp [finalizeFrame]
@[simp] theorem finalizeFrame_crcPoly (n : Nat) (s : State) : (finalizeFrame n s).crcPoly = s.crcPoly := by
  simp [finalizeFrame]
@[simp] theorem finalizeFrame_crcInit (n : Nat) (s : State) : (finalizeFrame n s).crcInit = s.crcInit := by
  simp [finalizeFrame]
@[simp] theorem finalizeFrame_crcXorOut (n : Nat) (s : State) : (finalizeFrame n s).crcXorOut = s.crcXorOut := by
  simp [finalizeFrame]
@[simp] theorem finalizeFrame_crcFlags (n : Nat) (s : State) : (finalizeFrame n s).crcFlags = s.crcFlags := by
  simp [finalizeFrame]
@[simp] theorem finalizeFrame_crcInitDirect (n : Nat) (s : State) : (finalizeFrame n s).crcInitDirect = s.crcInitDirect := by
  simp [finalizeFrame]
@[simp] theorem finalizeFrame_crcMask (n : Nat) (s : State) : (finalizeFrame n s).crcMask = s.crcMask := by
  simp [finalizeFrame]
@[simp] theorem finalizeFrame_crcHighBit (n : Nat) (s : State) : (finalizeFrame n s).crcHighBit = s.crcHighBit := by
  simp [finalizeFrame]
@[simp] theorem finalizeFrame_crcReg (n : Nat) (s : State) : (finalizeFrame n s).crcReg = s.crcReg := by
  simp [finalizeFrame]
@[simp] theorem finalizeFrame_arg0 (n : Nat) (s : State) : (finalizeFrame n s).arg0 = s.arg0 := by
  simp [finalizeFrame]
@[simp] theorem finalizeFrame_arg1 (n : Nat) (s : State) : (finalizeFrame n s).arg1 = s.arg1 := by
  simp [finalizeFrame]
@[simp] theorem finalizeFrame_arg2 (n : Nat) (s : State) : (finalizeFrame n s).arg2 = s.arg2 := by
  simp [finalizeFrame]
@[simp] theorem finalizeFrame_arg3 (n : Nat) (s : State) : (finalizeFrame n s).arg3 = s.arg3 := by
  simp [finalizeFrame]
@[simp] theorem finalizeFrame_arg4 (n : Nat) (s : State) : (finalizeFrame n s).arg4 = s.arg4 := by
  simp [finalizeFrame]
@[simp] theorem finalizeFrame_battStatus (n : Nat) (s : State) : (finalizeFrame n s).battStatus = s.battStatus := by
  simp [finalizeFrame]
@[simp] theorem finalizeFrame_battMv (n : Nat) (s : State) : (finalizeFrame n s).battMv = s.battMv := by
  simp [finalizeFrame]
@[simp] theorem finalizeFrame_inbox (n : Nat) (s : State) : (finalizeFrame n s).inbox = s.inbox := by
  simp [finalizeFrame]
@[simp] theorem finalizeFrame_bus (n : Nat) (s : State) : (finalizeFrame n s).bus = s.bus := by
  simp [finalizeFrame]
@[simp] theorem finalizeFrame_epoch (n : Nat) (s : State) : (finalizeFrame n s).epoch = s.epoch := by
  simp [finalizeFrame]

@[simp] theorem finalizeFrame_crcResult (n : Nat) (s : State) :
    (finalizeFrame n s).crcResult = spanChecksum s 0 (n - 2) := rfl

theorem finalizeFrame_mem (n : Nat) (s : State) :
    (finalizeFrame n s).mem = storeBytes s.mem (frameBase + (n - 2))
      [(spanChecksum s 0 (n - 2)).extractLsb' 0 8, (spanChecksum s 0 (n - 2)).extractLsb' 8 8] := rfl

/-! ### buildFrame -/

section
variable (n opc opt : Byte) (payload : List Byte) (s : State)

@[simp] theorem buildFrame_cmd : (buildFrame n opc opt payload s).cmd = s.cmd := by
  simp [buildFrame]
@[simp] theorem buildFrame_err : (buildFrame n opc opt payload s).err = s.err := by
  simp [buildFrame]
@[simp] theorem buildFrame_frameLen : (buildFrame n opc opt payload s).frameLen = n := by
  simp [buildFrame]
@[simp] theorem buildFrame_respCount : (buildFrame n opc opt payload s).respCount = s.respCount := by
  simp [buildFrame]
@[simp] theorem buildFrame_crcOrder : (buildFrame n opc opt payload s).crcOrder = s.crcOrder := by
  simp [buildFrame]
@[simp] theorem buildFrame_crcPoly : (buildFrame n opc opt payload s).crcPoly = s.crcPoly := by
  simp [buildFrame]
@[simp] theorem buildFrame_crcInit : (buildFrame n opc opt payload s).crcInit = s.crcInit := by
  simp [buildFrame]
@[simp] theorem buildFrame_crcXorOut : (buildFrame n opc opt payload s).crcXorOut = s.crcXorOut := by
  simp [buildFrame]
@[simp] theorem buildFrame_crcFlags : (buildFrame n opc opt payload s).crcFlags = s.crcFlags := by
  simp [buildFrame]
@[simp] theorem buildFrame_crcInitDirect : (buildFrame n opc opt payload s).crcInitDirect = s.crcInitDirect := by
  simp [buildFrame]
@[simp] theorem buildFrame_crcMask : (buildFrame n opc opt payload s).crcMask = s.crcMask := by
  simp [buildFrame]
@[simp] theorem buildFrame_crcHighBit : (buildFrame n opc opt payload s).crcHighBit = s.crcHighBit := by
  simp [buildFrame]
@[simp] theorem buildFrame_crcReg : (buildFrame n opc opt payload s).crcReg = s.crcReg := by
  simp [buildFrame]
@[simp] theorem buildFrame_arg0 : (buildFrame n opc opt payload s).arg0 = s.arg0 := by
  simp [buildFrame]
@[simp] theorem buildFrame_arg1 : (buildFrame n opc opt payload s).arg1 = s.arg1 := by
  simp [buildFrame]
@[simp] theorem buildFrame_arg2 : (buildFrame n opc opt payload s).arg2 = s.arg2 := by
  simp [buildFrame]
@[simp] theorem buildFrame_arg3 : (buildFrame n opc opt payload s).arg3 = s.arg3 := by
  simp [buildFrame]
@[simp] theorem buildFrame_arg4 : (buildFrame n opc opt payload s).arg4 = s.arg4 := by
  simp [buildFrame]
@[simp] theorem buildFrame_battStatus : (buildFrame n opc opt payload s).battStatus = s.battStatus := by
  simp [buildFrame]
@[simp] theorem buildFrame_battMv : (buildFrame n opc opt payload s).battMv = s.battMv := by
  simp [buildFrame]
@[simp] theorem buildFrame_inbox : (buildFrame n opc opt payload s).inbox = s.inbox := by
  simp [buildFrame]
@[simp] theorem buildFrame_bus : (buildFrame n opc opt payload s).bus = s.bus := by
  simp [buildFrame]
@[simp] theorem buildFrame_epoch : (buildFrame n opc opt payload s).epoch = s.epoch := by
  simp [buildFrame]

end

/-! ### The configuration tuple after an update -/

@[simp] theorem cfgOf_raiseError (e : ErrCode) (s : State) : cfgOf (raiseError e s) = cfgOf s := rfl
@[simp] theorem cfgOf_complete (s : State) : cfgOf (complete s) = cfgOf s := rfl
@[simp] theorem cfgOf_recompute (s : State) : cfgOf (recompute s) = cfgOf s := rfl
@[simp] theorem cfgOf_noteDraw (start len : Nat) (s : State) : cfgOf (noteDraw start len s) = cfgOf s := by
  unfold noteDraw; split <;> rfl
@[simp] theorem cfgOf_finalizeFrame (n : Nat) (s : State) : cfgOf (finalizeFrame n s) = cfgOf s := by
  unfold cfgOf flagRefIn flagRefOut flagDirect; simp
@[simp] theorem cfgOf_buildFrame (n opc opt : Byte) (payload : List Byte) (s : State) :
    cfgOf (buildFrame n opc opt payload s) = cfgOf s := by
  unfold cfgOf flagRefIn flagRefOut flagDirect; simp
@[simp] theorem cfgOf_order (s : State) : (cfgOf s).order = s.crcOrder.toNat := rfl

end Sys2Proof.Machine
end

