-- ==== Sys2Proof/Laws/Ops.lean ====
section
/-! SUPPORT. One lemma for each shared operation that says what it can do: the span checksum, the Finalizer, Build, the
register window, accepting an input, and a step. -/

namespace Sys2Proof.Machine

/-! ### The span checksum -/

/-- Over a span that has been written, the span checksum is R63's. -/
theorem spanChecksum_of_loaded (s : State) (start len : Nat) (bytes : List Byte)
    (h : loadBytes s.mem (frameBase + start) len = some bytes) :
    spanChecksum s start len = checksum (cfgOf s) bytes := by
  simp [spanChecksum, h]

theorem spanWritten_of_loaded (s : State) (start len : Nat) (bytes : List Byte)
    (h : loadBytes s.mem (frameBase + start) len = some bytes) : spanWritten s start len = true := by
  simp [spanWritten, h]

/-- Written or not, a span checksum has only `order` bits (R30). -/
theorem spanChecksum_masked (s : State) (start len : Nat) :
    spanChecksum s start len &&& maskOf s.crcOrder.toNat = spanChecksum s start len := by
  unfold spanChecksum
  split
  · exact checksum_masked (cfgOf s) _
  · exact and_maskOf_idem _ _

/-! ### The Finalizer (R73) -/

/-- Over a written span the Finalizer stores the trailer and CRC_RESULT and draws no free value. -/
theorem finalizeFrame_of_loaded (n : Nat) (s : State) (bytes : List Byte)
    (h : loadBytes s.mem frameBase (n - 2) = some bytes) :
    finalizeFrame n s = { s with
      mem := storeBytes s.mem (frameBase + (n - 2))
        [(checksum (cfgOf s) bytes).extractLsb' 0 8, (checksum (cfgOf s) bytes).extractLsb' 8 8]
      crcResult := checksum (cfgOf s) bytes } := by
  have h0 : loadBytes s.mem (frameBase + 0) (n - 2) = some bytes := by simpa using h
  unfold finalizeFrame
  rw [noteDraw_of_written _ _ _ (spanWritten_of_loaded s 0 (n - 2) bytes h0),
    spanChecksum_of_loaded s 0 (n - 2) bytes h0]

/-- The Finalizer writes no byte other than the two of the trailer. -/
theorem finalizeFrame_elsewhere (n : Nat) (s : State) (a : Nat)
    (h : a < frameBase + (n - 2) ∨ frameBase + (n - 2) + 2 ≤ a) :
    loadByte (finalizeFrame n s).mem a = loadByte s.mem a := by
  rw [finalizeFrame_mem]
  exact loadByte_storeBytes_outside _ _ _ _ (by simpa using h)

/-- An offset inside FRAME. -/
theorem bufferOffset_frame {k : Nat} (h : k < 32) : bufferOffset (frameBase + k) = true := by
  rw [bufferOffset_iff, frameBase]; omega

/-- An offset inside RESP. -/
theorem bufferOffset_resp {k : Nat} (h : k < 12) : bufferOffset (respBase + k) = true := by
  rw [bufferOffset_iff, respBase]; omega

/-- The Finalizer keeps the memory canonical for every length it is called with. -/
theorem finalizeFrame_wf (n : Nat) (s : State) (h2 : 2 ≤ n) (h : n ≤ 32)
    (hm : Memory.wf s.mem = true) : Memory.wf (finalizeFrame n s).mem = true := by
  rw [finalizeFrame_mem]
  refine storeBytes_wf _ _ _ (fun k hk => ?_) hm
  rw [Nat.add_assoc]
  exact bufferOffset_frame (by simp at hk; omega)

/-! ### Build (R77) -/

/-- Build followed by the command's completion builds the frame: header, options and payload, then the trailer. -/
theorem buildFrame_builds (n opc opt : Byte) (payload : List Byte) (s : State)
    (hn : n.toNat = payload.length + 6) :
    BuildsFrame s (complete (buildFrame n opc opt payload s)) (startMarker :: n :: opc :: opt :: payload) := by
  have hload : loadBytes (storeBytes s.mem frameBase (startMarker :: n :: opc :: opt :: payload)) frameBase
      (n.toNat - 2) = some (startMarker :: n :: opc :: opt :: payload) := by
    rw [show n.toNat - 2 = (startMarker :: n :: opc :: opt :: payload).length by simp; omega]
    exact loadBytes_storeBytes_same _ _ _
  have hfin := finalizeFrame_of_loaded n.toNat
    { s with mem := storeBytes s.mem frameBase (startMarker :: n :: opc :: opt :: payload), frameLen := n } _ hload
  have hcfg : cfgOf { s with
      mem := storeBytes s.mem frameBase (startMarker :: n :: opc :: opt :: payload), frameLen := n } = cfgOf s := rfl
  rw [hcfg] at hfin
  have hlen : (startMarker :: n :: opc :: opt :: payload).length = n.toNat - 2 := by simp; omega
  have hn2 : BitVec.ofNat 8 ((startMarker :: n :: opc :: opt :: payload).length + 2) = n := by
    rw [hlen, show n.toNat - 2 + 2 = n.toNat by omega]; simp
  have hmem : (complete (buildFrame n opc opt payload s)).mem =
      storeBytes (storeBytes s.mem frameBase (startMarker :: n :: opc :: opt :: payload))
        (frameBase + (startMarker :: n :: opc :: opt :: payload).length)
        [(checksum (cfgOf s) (startMarker :: n :: opc :: opt :: payload)).extractLsb' 0 8,
         (checksum (cfgOf s) (startMarker :: n :: opc :: opt :: payload)).extractLsb' 8 8] := by
    rw [complete_mem, buildFrame, hfin, hlen]
  refine ⟨?_, fun k b hk => ?_, ?_, ?_, fun a ha => ?_⟩
  · rw [hn2]
    simp only [buildFrame, hfin, complete, errBits]
  · have hk' : k < (startMarker :: n :: opc :: opt :: payload).length := (List.getElem?_eq_some_iff.mp hk).1
    rw [hmem, loadByte_storeBytes_outside _ _ _ _ (by omega)]
    exact loadByte_storeBytes_inside _ _ _ _ _ hk
  · rw [hmem]
    exact loadByte_storeBytes_inside _ _ _ 0 _ rfl
  · rw [hmem]
    exact loadByte_storeBytes_inside _ _ _ 1 _ rfl
  · have h2 : ∀ x y : Byte, [x, y].length = 2 := fun _ _ => rfl
    rw [hmem, loadByte_storeBytes_outside _ _ _ _ (by rw [h2]; omega),
      loadByte_storeBytes_outside _ _ _ _ (by omega)]

/-- Build keeps the memory canonical for every frame the commands build. -/
theorem buildFrame_wf (n opc opt : Byte) (payload : List Byte) (s : State)
    (hn : n.toNat = payload.length + 6) (h : n.toNat ≤ 32) (hm : Memory.wf s.mem = true) :
    Memory.wf (buildFrame n opc opt payload s).mem = true := by
  refine finalizeFrame_wf _ _ (by omega) h (storeBytes_wf _ _ _ (fun k hk => bufferOffset_frame ?_) hm)
  simp at hk; omega

/-! ### The register window -/

/-- What a legal access reaches, and that nothing else is legal (R38). -/
theorem legalPort_eq_some (off width : Nat) (p : Port) :
    legalPort off width = some p ↔ off % 4 = 0 ∧ off < 256 ∧ width = 32 ∧ windowMap.lookup off = some p := by
  unfold legalPort windowSize
  split
  · rename_i h; simp [h]
  · rename_i h; simp; tauto

/-- A buffer word the window maps lies inside FRAME or RESP (R13). -/
theorem windowMap_buffers : ∀ e ∈ windowMap, ∀ off,
    e.2 = .frameWord off ∨ e.2 = .respWord off → ∀ k, k < 4 → bufferOffset (off + k) = true := by
  intro e he off h k hk
  have hoff : off = e.1 ∧ (e.1 ∈ [0x60, 0x64, 0x68, 0x6C, 0x70, 0x74, 0x78, 0x7C, 0x80, 0x84, 0x88]) := by
    fin_cases he <;> simp_all
  obtain ⟨rfl, hmem⟩ := hoff
  simp only [List.mem_cons, List.not_mem_nil, or_false] at hmem
  rw [bufferOffset_iff]
  omega

theorem lookup_mem {α β : Type} [BEq α] [LawfulBEq α] (l : List (α × β)) (a : α) (b : β)
    (h : l.lookup a = some b) : (a, b) ∈ l := by
  induction l with
  | nil => cases h
  | cons p rest ih =>
    obtain ⟨x, y⟩ := p
    by_cases hx : a = x
    · subst hx
      rw [List.lookup_cons_self] at h
      exact Option.some.inj h ▸ List.mem_cons_self
    · have : (a == x) = false := by simpa using hx
      rw [List.lookup_cons, this] at h
      exact List.mem_cons_of_mem _ (ih h)

/-- The two shapes a host write takes, and when it is a command. -/
theorem hostWrite_cases (off width : Nat) (w : Word) (s : State) :
    (legalPort off width = none ∧ hostWrite off width w s = .done { s with bus := .busError }) ∨
    (legalPort off width = some .cmd ∧
      hostWrite off width w s = .command w { s with cmd := w, bus := .writeDone }) ∨
    (∃ p, p ≠ .cmd ∧ legalPort off width = some p ∧
      hostWrite off width w s = .done { writePort w s p with bus := .writeDone }) := by
  unfold hostWrite
  cases h : legalPort off width with
  | none => exact .inl ⟨rfl, rfl⟩
  | some p =>
    by_cases hp : p = .cmd
    · subst hp; exact .inr (.inl ⟨rfl, rfl⟩)
    · refine .inr (.inr ⟨p, hp, rfl, ?_⟩)
      cases p <;> first | rfl | exact absurd rfl hp

/-- Everything accepting an input can come to. -/
theorem acceptInput_cases (s : State) :
    (s.inbox = [] ∧ acceptInput s = .idle) ∨
    (∃ off width rest, s.inbox = .read off width :: rest ∧
      acceptInput s = .done { s with inbox := rest, bus := hostRead s off width }) ∨
    (∃ off width w rest, s.inbox = .write off width w :: rest ∧
      acceptInput s = hostWrite off width w { s with inbox := rest }) ∨
    (∃ rest, s.inbox = .reset :: rest ∧ acceptInput s = .done (platformReset { s with inbox := rest })) := by
  unfold acceptInput
  split
  · rename_i h; exact .inl ⟨h, rfl⟩
  · rename_i off width rest h; exact .inr (.inl ⟨off, width, rest, h, rfl⟩)
  · rename_i off width w rest h; exact .inr (.inr (.inl ⟨off, width, w, rest, h, rfl⟩))
  · rename_i rest h; exact .inr (.inr (.inr ⟨rest, h, rfl⟩))

/-- Everything a step can do. -/
theorem step_cases (s : State) :
    (s.inbox = [] ∧ step s = .next s) ∨
    (∃ off width rest, s.inbox = .read off width :: rest ∧
      step s = .next { s with inbox := rest, bus := hostRead s off width }) ∨
    (∃ rest, s.inbox = .reset :: rest ∧ step s = .next (platformReset { s with inbox := rest })) ∨
    (∃ off width w rest, s.inbox = .write off width w :: rest ∧ legalPort off width = none ∧
      step s = .next { s with inbox := rest, bus := .busError }) ∨
    (∃ off width w rest p, s.inbox = .write off width w :: rest ∧ p ≠ .cmd ∧ legalPort off width = some p ∧
      step s = .next { writePort w { s with inbox := rest } p with bus := .writeDone }) ∨
    (∃ off width w rest i, s.inbox = .write off width w :: rest ∧ legalPort off width = some .cmd ∧
      decode w = .ok i ∧ step s = exec i { s with inbox := rest, cmd := w, bus := .writeDone }) ∨
    (∃ off width w rest e, s.inbox = .write off width w :: rest ∧ legalPort off width = some .cmd ∧
      decode w = .error e ∧
      step s = .next (raiseError .illegalCmd { s with inbox := rest, cmd := w, bus := .writeDone })) := by
  unfold step
  rcases acceptInput_cases s with ⟨h, ha⟩ | ⟨off, width, rest, h, ha⟩ | ⟨off, width, w, rest, h, ha⟩ | ⟨rest, h, ha⟩
  · exact .inl ⟨h, by rw [ha]⟩
  · exact .inr (.inl ⟨off, width, rest, h, by rw [ha]⟩)
  · rcases hostWrite_cases off width w { s with inbox := rest } with ⟨hl, hw⟩ | ⟨hl, hw⟩ | ⟨p, hp, hl, hw⟩
    · exact .inr (.inr (.inr (.inl ⟨off, width, w, rest, h, hl, by rw [ha, hw]⟩)))
    · refine .inr (.inr (.inr (.inr (.inr ?_))))
      cases hd : decode w with
      | ok i => exact .inl ⟨off, width, w, rest, i, h, hl, hd, by rw [ha, hw]; simp only [hd]⟩
      | error e =>
        refine .inr ⟨off, width, w, rest, e, h, hl, hd, ?_⟩
        rw [ha, hw]; simp only [hd]; cases e <;> rfl
    · exact .inr (.inr (.inr (.inr (.inl ⟨off, width, w, rest, p, h, hp, hl, by rw [ha, hw]⟩))))
  · exact .inr (.inr (.inl ⟨rest, h, by rw [ha]⟩))

/-- A host address in the window reaches the offset above `BASE` (R38, R47). -/
theorem windowOffset_base (off : Nat) (h : off < 256) : windowOffset (Config.base + off) = some off := by
  simp [windowOffset, windowSize, h]

end Sys2Proof.Machine
end

