-- ==== Sys2Proof/Laws/Exec.lean ====
section
/-! SUPPORT. Everything a command can do, said once: `exec_cases`. -/

namespace Sys2Proof.Machine

/-- Which command raises which code, and when (R95, columns "raised by" and "cause"). -/
def RaisedBy (i : Instr) (s : State) (e : ErrCode) : Prop :=
  (e = .badLength ∧ i = .crcSpan ∧ 32 < (spanStart s).toNat + (spanLen s).toNat) ∨
  (e = .badLength ∧ i = .finalize ∧ (s.frameLen.toNat < 2 ∨ 32 < s.frameLen.toNat)) ∨
  (e = .badArg ∧ i = .encSetWidgetList ∧ (widgetPairCount s).toNat = 0) ∨
  (e = .shortResponse ∧ i = .parseBattery ∧ s.respCount.toNat < 12) ∨
  (e = .badLength ∧ i = .parseBattery ∧ 12 < s.respCount.toNat)

/-- A command that completes, by its shape: what it makes of `s` before STATUS.ERR is set to 0. -/
def Completes (i : Instr) (s u : State) : Prop :=
  (i = .crcStart ∧ u = { s with crcReg := initDirect (cfgOf s) }) ∨
  (i = .crcFeed ∧ u = { s with
    crcReg := feedByte (cfgOf s) (s.crcReg &&& maskOf (cfgOf s).order) (feedOperand s) }) ∨
  (i = .crcFinal ∧ u = { s with crcResult := output (cfgOf s) s.crcReg }) ∨
  (i = .crcSpan ∧ ∃ start len, start = (spanStart s).toNat ∧ len = (spanLen s).toNat ∧ start + len ≤ 32 ∧
    u = { noteDraw start len s with crcResult := spanChecksum s start len }) ∨
  (i = .finalize ∧ ∃ n, n = s.frameLen.toNat ∧ 2 ≤ n ∧ n ≤ 32 ∧ u = finalizeFrame n s) ∨
  (isBuilder i = true ∧ ∃ n opc opt payload, n.toNat = payload.length + 6 ∧ n.toNat ≤ 20 ∧
    u = buildFrame n opc opt payload s) ∨
  (i = .parseBattery ∧ s.respCount.toNat = 12 ∧ u = { s with
    battStatus := battStatusOf (respByte s 4) (respByte s 5) (respByte s 6)
    battMv := respByte s 9 ++ respByte s 8 })

theorem completes_build (i : Instr) (s : State) (n opc opt : Byte) (payload : List Byte)
    (hi : isBuilder i = true) (hn : n.toNat = payload.length + 6) (h20 : n.toNat ≤ 20) :
    Completes i s (buildFrame n opc opt payload s) :=
  .inr (.inr (.inr (.inr (.inr (.inl ⟨hi, n, opc, opt, payload, hn, h20, rfl⟩)))))

/-- A command either raises one of its codes, changing nothing else, or completes in one of seven shapes. -/
theorem exec_cases (i : Instr) (s : State) :
    (∃ e, RaisedBy i s e ∧ exec i s = .next (raiseError e s)) ∨
    (∃ u, Completes i s u ∧ exec i s = .next (complete u)) := by
  have hframe : frameCap = 32 := rfl
  have hresp : respCap = 12 := rfl
  cases i
  case crcStart => exact .inr ⟨_, .inl ⟨rfl, rfl⟩, rfl⟩
  case crcFeed => exact .inr ⟨_, .inr (.inl ⟨rfl, rfl⟩), rfl⟩
  case crcFinal => exact .inr ⟨_, .inr (.inr (.inl ⟨rfl, rfl⟩)), rfl⟩
  case crcSpan =>
    by_cases h : (spanStart s).toNat + (spanLen s).toNat > frameCap
    · exact .inl ⟨.badLength, .inl ⟨rfl, rfl, h⟩, by simp only [exec, execCrcSpan]; rw [if_pos h]⟩
    · exact .inr ⟨_, .inr (.inr (.inr (.inl ⟨rfl, _, _, rfl, rfl, by omega, rfl⟩))), by
        simp only [exec, execCrcSpan]; rw [if_neg h]⟩
  case finalize =>
    by_cases h : s.frameLen.toNat < 2 ∨ s.frameLen.toNat > frameCap
    · exact .inl ⟨.badLength, .inr (.inl ⟨rfl, rfl, h⟩), by simp only [exec, execFinalize]; rw [if_pos h]⟩
    · exact .inr ⟨_, .inr (.inr (.inr (.inr (.inl ⟨rfl, _, rfl, by omega, by omega, rfl⟩)))), by
        simp only [exec, execFinalize]; rw [if_neg h]⟩
  case encSetWidgetList =>
    have h8 : (widgetPairCount s).toNat < 8 := (widgetPairCount s).isLt
    by_cases h : (widgetPairCount s).toNat < 1 ∨ (widgetPairCount s).toNat > 7
    · exact .inl ⟨.badArg, .inr (.inr (.inl ⟨rfl, rfl, by omega⟩)), by
        simp only [exec, execEncSetWidgetList]; rw [if_pos h]⟩
    · have hlen : ((widgetPairBytes s).take (2 * (widgetPairCount s).toNat)).length =
          2 * (widgetPairCount s).toNat := by
        rw [List.length_take]
        exact Nat.min_eq_left (show 2 * (widgetPairCount s).toNat ≤ 16 by omega)
      have hnat : (BitVec.ofNat 8 (6 + 2 * (widgetPairCount s).toNat)).toNat =
          6 + 2 * (widgetPairCount s).toNat := by rw [BitVec.toNat_ofNat]; omega
      exact .inr ⟨_, completes_build _ s _ _ _ _ rfl (hnat.trans (by rw [hlen]; omega)) (by omega), by
        simp only [exec, execEncSetWidgetList]; rw [if_neg h]⟩
  case parseBattery =>
    by_cases h : s.respCount.toNat < respCap
    · exact .inl ⟨.shortResponse, .inr (.inr (.inr (.inl ⟨rfl, rfl, h⟩))), by
        simp only [exec, execParseBattery]; rw [if_pos h]⟩
    · by_cases h' : s.respCount.toNat > respCap
      · exact .inl ⟨.badLength, .inr (.inr (.inr (.inr ⟨rfl, rfl, h'⟩))), by
          simp only [exec, execParseBattery]; rw [if_neg h, if_pos h']⟩
      · exact .inr ⟨_, .inr (.inr (.inr (.inr (.inr (.inr ⟨rfl, by omega, rfl⟩))))), by
          simp only [exec, execParseBattery]; rw [if_neg h, if_neg h']⟩
  all_goals exact .inr ⟨_, completes_build _ s _ _ _ _ rfl rfl (by decide), rfl⟩

/-- The same as an inversion: what a command that answers `t` has done. -/
theorem exec_next_cases {i : Instr} {s t : State} (h : exec i s = .next t) :
    (∃ e, RaisedBy i s e ∧ t = raiseError e s) ∨ (∃ u, Completes i s u ∧ t = complete u) := by
  rcases exec_cases i s with ⟨e, he, hx⟩ | ⟨u, hu, hx⟩
  · exact .inl ⟨e, he, by rw [hx] at h; injection h with h; exact h.symm⟩
  · exact .inr ⟨u, hu, by rw [hx] at h; injection h with h; exact h.symm⟩

/-- A raised code is not OK. -/
theorem RaisedBy.err_ne {i : Instr} {s : State} {e : ErrCode} (h : RaisedBy i s e) : errBits e ≠ 0#4 := by
  rcases h with ⟨rfl, _⟩ | ⟨rfl, _⟩ | ⟨rfl, _⟩ | ⟨rfl, _⟩ | ⟨rfl, _⟩ <;> decide

end Sys2Proof.Machine
end

