-- ==== Sys2Proof/Laws/PerInstr.lean ====
section
/-! SUPPORT. The per-instruction family of LAWS.json: the word the encoder writes for a command is well formed (R52). -/

namespace Sys2Proof.Laws.EncodedWordWellFormed

/-- The encoder writes a well-formed command word, with the command's code in bits [7:0] (R52). -/
def Statement (i : Instr) : Prop := wordWellFormed (encode i) = true ∧ (encode i).extractLsb' 0 8 = code i

theorem crcStart : Statement .crcStart := ⟨by decide, by decide⟩
theorem crcFeed : Statement .crcFeed := ⟨by decide, by decide⟩
theorem crcFinal : Statement .crcFinal := ⟨by decide, by decide⟩
theorem crcSpan : Statement .crcSpan := ⟨by decide, by decide⟩
theorem finalize : Statement .finalize := ⟨by decide, by decide⟩
theorem encSetClock : Statement .encSetClock := ⟨by decide, by decide⟩
theorem encSetVibration : Statement .encSetVibration := ⟨by decide, by decide⟩
theorem encSetFullscreen : Statement .encSetFullscreen := ⟨by decide, by decide⟩
theorem encUpdateDisplay : Statement .encUpdateDisplay := ⟨by decide, by decide⟩
theorem encUpdateDisplayDefault : Statement .encUpdateDisplayDefault := ⟨by decide, by decide⟩
theorem encSetBacklight : Statement .encSetBacklight := ⟨by decide, by decide⟩
theorem encSetWidgetList : Statement .encSetWidgetList := ⟨by decide, by decide⟩
theorem encClearScreen : Statement .encClearScreen := ⟨by decide, by decide⟩
theorem encGetBattery : Statement .encGetBattery := ⟨by decide, by decide⟩
theorem encResetDevice : Statement .encResetDevice := ⟨by decide, by decide⟩
theorem parseBattery : Statement .parseBattery := ⟨by decide, by decide⟩

end Sys2Proof.Laws.EncodedWordWellFormed
end

