-- ==== Sys2Proof/Tests/Slice0.lean ====
section
/-! SUPPORT. The model's own tests. Expected values are those of spec/95_test_vectors.md (named by its row) or written out from
the rule named; the last section holds one witness per statement that has hypotheses. -/

namespace Sys2Proof.Tests

open Sys2Proof Sys2Proof.Machine

/-! ### Small states -/

/-- The state after reset with these host accesses pending. -/
def pending (l : List Input) : State := { State.reset with inbox := l }

/-- The state after reset with these bytes written in FRAME from FRAME[0] up. -/
def framed (bs : List Byte) : State := { State.reset with mem := storeBytes [] frameBase bs }

/-- The response of vector E1 in RESP, its length in RESP_COUNT. -/
def responded (count : BitVec 8) : State :=
  { State.reset with
    respCount := count
    mem := storeBytes [] respBase [0, 0, 0, 0, 1, 0, 0x5A, 0, 0x10, 0x0E, 0, 0] }

/-- The state a step or a command answers with, or `d` where it stops. -/
def after (o : Host.Outcome State Fault Refusal) (d : State) : State :=
  match o with
  | .next t => t
  | .fault _ => d
  | .refused _ => d

/-- A configuration of section 2.4. -/
def conf (order : Nat) (poly init : Word) (refIn refOut direct : Bool) (xorOut : Word) : CrcConfig :=
  { order := order, poly := poly, init := init, refIn := refIn, refOut := refOut, xorOut := xorOut, direct := direct }

/-- "123456789". -/
def digits : List Byte := [0x31, 0x32, 0x33, 0x34, 0x35, 0x36, 0x37, 0x38, 0x39]

/-! ### WellFormed: each check refuses an ill-formed word -/

theorem test_wf_refuses_reserved_bits : wordWellFormed 0x00000110#32 = false := by decide
theorem test_wf_refuses_unlisted_code : wordWellFormed 0x00000005#32 = false := by decide
theorem test_wf_accepts_a_command : wordWellFormed 0x00000016#32 = true := by decide

/-! ### Decode: every constructor, its word written out from R53 bit by bit -/

theorem test_decode_crcStart : decode 0b00000000000000000000000000000001#32 = .ok .crcStart := by decide
theorem test_decode_crcFeed : decode 0b00000000000000000000000000000010#32 = .ok .crcFeed := by decide
theorem test_decode_crcFinal : decode 0b00000000000000000000000000000011#32 = .ok .crcFinal := by decide
theorem test_decode_crcSpan : decode 0b00000000000000000000000000000100#32 = .ok .crcSpan := by decide
theorem test_decode_finalize : decode 0b00000000000000000000000000001000#32 = .ok .finalize := by decide
theorem test_decode_encSetClock : decode 0b00000000000000000000000000010000#32 = .ok .encSetClock := by decide
theorem test_decode_encSetVibration :
    decode 0b00000000000000000000000000010001#32 = .ok .encSetVibration := by decide
theorem test_decode_encSetFullscreen :
    decode 0b00000000000000000000000000010010#32 = .ok .encSetFullscreen := by decide
theorem test_decode_encUpdateDisplay :
    decode 0b00000000000000000000000000010011#32 = .ok .encUpdateDisplay := by decide
theorem test_decode_encUpdateDisplayDefault :
    decode 0b00000000000000000000000000010100#32 = .ok .encUpdateDisplayDefault := by decide
theorem test_decode_encSetBacklight :
    decode 0b00000000000000000000000000010101#32 = .ok .encSetBacklight := by decide
theorem test_decode_encSetWidgetList :
    decode 0b00000000000000000000000000010110#32 = .ok .encSetWidgetList := by decide
theorem test_decode_encClearScreen :
    decode 0b00000000000000000000000000010111#32 = .ok .encClearScreen := by decide
theorem test_decode_encGetBattery :
    decode 0b00000000000000000000000000011000#32 = .ok .encGetBattery := by decide
theorem test_decode_encResetDevice :
    decode 0b00000000000000000000000000011001#32 = .ok .encResetDevice := by decide
theorem test_decode_parseBattery :
    decode 0b00000000000000000000000000100000#32 = .ok .parseBattery := by decide
theorem test_decode_refuses_code_00 : decode 0x00000000#32 = .error .unknownCode := by decide
theorem test_decode_refuses_reserved_bits : decode 0x00000110#32 = .error .reservedBitsSet := by decide
theorem test_table_word : decodeTableWord 32 0x20 = some .parseBattery := by decide

/-! ### The CRC functions (sections 2.1 to 2.4) -/

theorem test_reflect_1021 : reflect 0x1021#32 16 = 0x8408#32 := by decide
theorem test_reflect_full_width : reflect 0x04C11DB7#32 32 = 0xEDB88320#32 := by decide
theorem test_shiftStep_ffff_0 : shiftStep (cfgOf State.reset) 0xFFFF#32 false = 0xEFDF#32 := by decide
theorem test_shiftStep_8000_1 : shiftStep (cfgOf State.reset) 0x8000#32 true = 0x0000#32 := by decide
theorem test_feedByte_56 : feedByte (cfgOf State.reset) 0x1234#32 0x56#8 = 0xCB9F#32 := by decide
/-- A non-direct seed (2.3) and the checksums of "123456789" (2.4): the reset configuration, also by the reference of R65, CRC-32, and
an order below 8. -/
theorem test_checksums :
    initDirect (conf 32 0x04C11DB7 0xFFFFFFFF false false false 0) = 0xC704DD7B#32 ∧
    checksum (cfgOf State.reset) digits = 0x89F6#32 ∧ mwlChecksum (cfgOf State.reset) digits = 0x89F6 ∧
    checksum (conf 32 0x04C11DB7 0xFFFFFFFF true true true 0xFFFFFFFF) digits = 0xCBF43926#32 ∧
    checksum (conf 3 3 0 false false true 0) digits = 0x3#32 := by decide +kernel

/-! ### The commands (sections 2.5 to 2.7) -/

/-- V10 (CRC_START, non-direct), V6 (CRC_SPAN), F1 (FINALIZE: the trailer), and B1 with OPC_SET_CLOCK given as 0xE0, which only Build's
argument can be. -/
theorem test_command_checksums :
    (after (exec .crcStart { State.reset with crcFlags := 0 }) State.reset).crcReg = 0x1D0F#32 ∧
    (after (exec .crcSpan { framed [1, 4, 0x51, 0] with arg0 := 0x400#32 }) State.reset).crcResult = 0x2B6D#32 ∧
    loadBytes (after (exec .finalize { framed [1, 6, 0xAA, 0] with frameLen := 6 }) State.reset).mem 0x64 2 =
      some [0xD9, 0x33] ∧
    (buildFrame 14 0xE0 0 [7, 0xDD, 8, 13, 2, 13, 30, 0] State.reset).crcResult = 0x657B#32 := by decide +kernel
/-- V3. -/
theorem test_crcFeed_ignores_high_bits :
    (after (exec .crcFeed { State.reset with arg0 := 0xFFFFFF31#32 }) State.reset).crcReg = 0xB1F4#32 := by decide
/-- V5: the register is cut to 8 bits before the byte is fed. -/
theorem test_crcFeed_cuts_to_order :
    (after (exec .crcFeed { State.reset with
      crcOrder := 8, crcPoly := 7, crcReg := 0xB1F4#32, arg0 := 0x32#32 }) State.reset).crcReg = 0x21#32 := by decide
/-- V1. -/
theorem test_crcFinal_empty_stream :
    (after (exec .crcFinal State.reset) State.reset).crcResult = 0xFFFF#32 := by decide
/-- V9. -/
theorem test_crcSpan_too_long :
    (after (exec .crcSpan { State.reset with arg0 := 0xFFFF#32 }) State.reset).err = 3#4 := by decide
/-- F3. -/
theorem test_finalize_length_33 :
    (after (exec .finalize { State.reset with frameLen := 33 }) State.reset).err = 3#4 := by decide
/-- S7: the payload of SetClock(2013, 8, 13, 2, 13, 30, 0), the opcode being open. -/
theorem test_encSetClock_payload :
    loadBytes (after (exec .encSetClock { State.reset with arg0 := 0x0D0807DD#32, arg1 := 0x001E0D02#32 })
      State.reset).mem 0x63 9 = some [0, 7, 0xDD, 8, 13, 2, 13, 30, 0] := by decide
/-- B3. -/
theorem test_encSetVibration_payload :
    loadBytes (after (exec .encSetVibration { State.reset with arg0 := 0x03E801F4#32, arg1 := 5#32 })
      State.reset).mem 0x63 7 = some [0, 1, 0xF4, 0x01, 0xE8, 0x03, 5] := by decide
/-- B5. -/
theorem test_encSetFullscreen_bit_0_only :
    loadByte (after (exec .encSetFullscreen { State.reset with arg0 := 0xFFFFFFFE#32 }) State.reset).mem 0x63 =
      some 0 := by decide
/-- B6. -/
theorem test_encUpdateDisplay_options :
    loadBytes (after (exec .encUpdateDisplay { State.reset with arg0 := 0x002E140A#32 }) State.reset).mem 0x63 3 =
      some [0x2B, 0x0A, 0x14] := by decide
/-- B7. -/
theorem test_encUpdateDisplayDefault_payload :
    loadBytes (after (exec .encUpdateDisplayDefault State.reset) State.reset).mem 0x63 3 =
      some [0xA0, 0x00, 0x60] := by decide
/-- B9. -/
theorem test_encSetBacklight_on :
    loadByte (after (exec .encSetBacklight { State.reset with arg0 := 1#32 }) State.reset).mem 0x63 =
      some 1 := by decide
/-- B12, less the opcode and the trailer. -/
theorem test_encSetWidgetList_seven_pairs :
    loadBytes (after (exec .encSetWidgetList { State.reset with
      arg0 := 0x70E#32, arg1 := 0x21201110#32, arg2 := 0x41403130#32, arg3 := 0x61605150#32, arg4 := 0x7170#32 })
      State.reset).mem 0x63 15 =
      some [0x0E, 0x10, 0x11, 0x20, 0x21, 0x30, 0x31, 0x40, 0x41, 0x50, 0x51, 0x60, 0x61, 0x70, 0x71] := by decide
/-- B13. -/
theorem test_encSetWidgetList_no_pairs :
    (after (exec .encSetWidgetList State.reset) State.reset).err = 2#4 := by decide
/-- B14. -/
theorem test_encClearScreen_options :
    loadByte (after (exec .encClearScreen { State.reset with arg0 := 1#32 }) State.reset).mem 0x63 =
      some 1 := by decide
/-- B16. -/
theorem test_encGetBattery_length : (after (exec .encGetBattery State.reset) State.reset).frameLen = 6#8 := by decide
/-- B17. -/
theorem test_encResetDevice_length_byte :
    loadByte (after (exec .encResetDevice State.reset) State.reset).mem 0x61 = some 6 := by decide
/-- E1. -/
theorem test_parseBattery_status :
    (after (exec .parseBattery (responded 12)) State.reset).battStatus = 0x015A0001#25 := by decide
/-- E2. -/
theorem test_parseBattery_short : (after (exec .parseBattery (responded 11)) State.reset).err = 4#4 := by decide

/-! ### The bus (section 2.7) -/

/-- E6. -/
theorem test_step_illegal_word : (after (step (pending [.write 0 32 0x110])) State.reset).err = 1#4 := by decide
/-- E8, E9. -/
theorem test_step_order_33 : (after (step (pending [.write 0x10 32 33])) State.reset).err = 5#4 := by decide
/-- E10. -/
theorem test_step_order_32 :
    (after (step (pending [.write 0x10 32 0x60])) State.reset).crcHighBit = 0x80000000#32 := by decide
/-- E12. -/
theorem test_step_flags_reserved :
    (after (step (pending [.write 0x20 32 0xFFFFFFFF])) State.reset).crcFlags = 7#3 := by decide
/-- E14. -/
theorem test_step_reserved_offset :
    step (pending [.read 0x38 32]) = .next { State.reset with bus := .busError } := rfl
/-- E16. -/
theorem test_step_misaligned_write :
    step (pending [.write 0x62 32 7]) = .next { State.reset with bus := .busError } := rfl
/-- E17. -/
theorem test_step_write_frame_word :
    (after (step (pending [.write 0x60 32 0x44332211])) State.reset).mem =
      storeBytes [] 0x60 [0x11, 0x22, 0x33, 0x44] := by decide
/-- What `withFetchWord` is for: the next step runs the command. -/
theorem test_withFetchWord_runs :
    step (State.reset.withFetchWord 32 3) =
      exec .crcFinal { State.reset with cmd := 3, bus := .writeDone } := rfl

/-! ### Witnesses: every statement's hypotheses can be met -/

theorem witness_StepRunsTheDecodedCommand :
    (pending [.write 0 32 1]).inbox = .write 0x00 32 1 :: [] ∧ decode 1 = .ok .crcStart := ⟨rfl, by decide⟩
theorem witness_WordThatIsNoCommandSetsOnlyErr :
    (pending [.write 0 32 0x110]).inbox = .write 0x00 32 0x110 :: [] ∧ wordWellFormed 0x110 = false :=
  ⟨rfl, by decide⟩
theorem witness_BlockWithNothingPendingIsStill : (pending []).inbox = [] := rfl
theorem witness_ReflectReversesTheBits :
    (1 ≤ 16 ∧ 16 ≤ 32 ∧ (0x1021#32).toNat < 2 ^ 16) ∧ (1 ≤ 1 ∧ 1 ≤ 32 ∧ (1#32).toNat < 2 ^ 1) ∧
      (1 ≤ 32 ∧ 32 ≤ 32 ∧ (0xFFFFFFFF#32).toNat < 2 ^ 32) := by decide
theorem witness_ShiftStepBitByBit :
    (1 ≤ (cfgOf State.reset).order ∧ (cfgOf State.reset).order ≤ 32 ∧
      (0xFFFF#32).toNat < 2 ^ (cfgOf State.reset).order) ∧
    (1 ≤ (conf 1 1 1 false false true 0).order ∧ (1#32).toNat < 2 ^ (conf 1 1 1 false false true 0).order) := by
  decide
theorem witness_SeedOfDirectAndNonDirectForms :
    (1 ≤ (conf 16 7 5 false false true 0).order ∧ (conf 16 7 5 false false true 0).order ≤ 32 ∧
      (conf 16 7 5 false false true 0).direct = true) ∧
    (1 ≤ (conf 32 7 0 false false false 0).order ∧ (conf 32 7 0 false false false 0).order ≤ 32 ∧
      (conf 32 7 0 false false false 0).direct = false ∧ (conf 32 7 0 false false false 0).init = 0#32) := by decide
theorem witness_MaskingEveryStepEqualsMaskingOnce :
    1 ≤ (conf 1 1 0 true true false 0xFFFF).order ∧ (conf 1 1 0 true true false 0xFFFF).order ≤ 32 ∧
      1 ≤ (conf 32 7 9 true true true 1).order ∧ (conf 32 7 9 true true true 1).order ≤ 32 := by decide
theorem witness_HighConfigurationBitsDoNotMatter :
    conf 8 7 0xFF true false true 0x12 =
      { conf 8 0xFF07 0xABFF true false true 0x3412 with
        poly := (conf 8 0xFF07 0xABFF true false true 0x3412).poly &&& maskOf 8
        init := (conf 8 0xFF07 0xABFF true false true 0x3412).init &&& maskOf 8
        xorOut := (conf 8 0xFF07 0xABFF true false true 0x3412).xorOut &&& maskOf 8 } := by decide
theorem witness_StreamedChecksumEqualsSpanChecksum :
    State.reset.crcReg = [].foldl (feedByte (cfgOf State.reset)) (initDirect (cfgOf State.reset)) := by decide
/-- A span of four written bytes, the empty span at 32, and a span one byte too long. -/
theorem witness_CrcSpanChecksumsTheSpan :
    (((0x400#32).extractLsb' 0 8).toNat + ((0x400#32).extractLsb' 8 8).toNat ≤ 32 ∧
      (∀ k b, [1, 4, 0x51, 0][k]? = some b → loadByte (framed [1, 4, 0x51, 0]).mem (frameBase + 0 + k) = some b)) ∧
    ((0x20#32).extractLsb' 0 8).toNat + ((0x20#32).extractLsb' 8 8).toNat = 32 ∧
    ((0x121#32).extractLsb' 0 8).toNat + ((0x121#32).extractLsb' 8 8).toNat = 34 :=
  ⟨⟨by decide, fun k b h => loadByte_storeBytes_inside [] frameBase _ k b h⟩, by decide, by decide⟩
theorem witness_UnwrittenSpanStillCompletes :
    (1 ≤ State.reset.crcOrder.toNat ∧ State.reset.crcOrder.toNat ≤ 32 ∧
      ((0x11F#32).extractLsb' 0 8).toNat + ((0x11F#32).extractLsb' 8 8).toNat ≤ 32 ∧
      spanWritten { State.reset with arg0 := 0x11F#32 } ((0x11F#32).extractLsb' 0 8).toNat
        ((0x11F#32).extractLsb' 8 8).toNat = false) ∧
    (1 ≤ (framed [9, 9]).crcOrder.toNat ∧ (framed [9, 9]).crcOrder.toNat ≤ 32 ∧
      2 ≤ (5#8).toNat ∧ (5#8).toNat ≤ 32 ∧ spanWritten { framed [9, 9] with frameLen := 5 } 0 ((5#8).toNat - 2) = false) := by
  decide
/-- N = 6 over written bytes, N = 2 with no byte, and the refused N = 1 and N = 33. -/
theorem witness_FinalizeFillsTheTrailer :
    (∀ k b, [1, 6, 0xAA, 0][k]? = some b → loadByte (framed [1, 6, 0xAA, 0]).mem (frameBase + k) = some b) ∧
    (6#8).toNat - 2 = 4 ∧ 2 ≤ (2#8).toNat ∧ (1#8).toNat < 2 ∧ 32 < (33#8).toNat :=
  ⟨fun k b h => loadByte_storeBytes_inside [] frameBase _ k b h, by decide, by decide, by decide, by decide⟩
theorem framed_inv (n : BitVec 8) : ({ framed [1, 6, 0xAA, 0] with frameLen := n } : State).Inv :=
  ⟨(by decide : 1 ≤ State.reset.crcOrder.toNat ∧ State.reset.crcOrder.toNat ≤ 32), rfl, rfl,
    (by decide : State.reset.crcInitDirect = initDirect (cfgOf State.reset)),
    (by decide : State.reset.err.toNat ≤ 5), (by decide : (framed [1, 6, 0xAA, 0]).mem.wf = true), fun _ => ⟨rfl, rfl⟩⟩
theorem witness_FinalizeTwiceIsFinalizeOnce :
    ({ framed [1, 6, 0xAA, 0] with frameLen := 6 } : State).Inv ∧
      spanWritten { framed [1, 6, 0xAA, 0] with frameLen := 6 } 0 (6 - 2) = true ∧
      ∃ t, exec .finalize { framed [1, 6, 0xAA, 0] with frameLen := 6 } = .next t ∧ t.err = 0#4 :=
  ⟨framed_inv 6, by decide, _, rfl, rfl⟩
theorem witness_FinishedFrameChecksOut :
    (isBuilder .encGetBattery = true ∧ ∃ t, exec .encGetBattery State.reset = .next t ∧ t.err = 0#4) ∧
    (spanWritten { framed [1, 6, 0xAA, 0] with frameLen := 6 } 0 (6 - 2) = true ∧
      ∃ t, exec .finalize { framed [1, 6, 0xAA, 0] with frameLen := 6 } = .next t ∧ t.err = 0#4) :=
  ⟨⟨rfl, _, rfl, rfl⟩, by decide, _, rfl, rfl⟩
/-- Pair counts 1, 7 and 0. -/
theorem witness_SetWidgetListBuildsItsFrame :
    1 ≤ ((0x100#32).extractLsb' 8 3).toNat ∧ ((0x700#32).extractLsb' 8 3).toNat = 7 ∧
      ((0xFF#32).extractLsb' 8 3).toNat = 0 := by decide
/-- RESP_COUNT 12, 11 and 13. -/
theorem witness_ParseBatteryStoresTheResponse :
    (responded 12).respCount.toNat = 12 ∧ (responded 11).respCount.toNat < 12 ∧ 12 < (responded 13).respCount.toNat := by
  decide
theorem witness_RefusedCommandChangesOnlyErr :
    ∃ t, exec .encSetWidgetList State.reset = .next t ∧ t.err ≠ 0#4 := ⟨_, rfl, by decide⟩
theorem witness_ErrorCodesComeFromTheirCommands :
    ∃ t, exec .parseBattery (responded 13) = .next t ∧ t.err = 3#4 := ⟨_, rfl, rfl⟩
theorem witness_OtherAccessesLeaveErr :
    (∃ t, (pending [.read 0 32]).inbox = .read 0 32 :: [] ∧ step (pending [.read 0 32]) = .next t) ∧
    (∃ t, (pending [.write 0x14 32 7]).inbox = .write 0x14 32 7 :: [] ∧ step (pending [.write 0x14 32 7]) = .next t ∧
      0x14 ≠ 0x00 ∧ 0x14 ≠ 0x10) := ⟨⟨_, rfl, rfl⟩, _, rfl, rfl, by decide, by decide⟩
theorem witness_CommandsLeaveTheHostsRegisters : ∃ t, exec .encSetClock State.reset = .next t := ⟨_, rfl⟩
theorem witness_RunningRegisterHasTwoWriters :
    1 ≤ State.reset.crcOrder.toNat ∧ State.reset.crcOrder.toNat ≤ 32 ∧ (∃ t, exec .crcFeed State.reset = .next t) ∧
      ∃ t, exec .crcFinal State.reset = .next t := ⟨by decide, by decide, ⟨_, rfl⟩, _, rfl⟩
theorem witness_ResultIsBelowTwoToTheOrder :
    1 ≤ State.reset.crcOrder.toNat ∧ State.reset.crcOrder.toNat ≤ 32 ∧ (∃ t, exec .crcStart State.reset = .next t) ∧
      (∃ t, exec .crcFinal State.reset = .next t) ∧
      ∃ t, exec .crcSpan State.reset = .next t ∧ t.err = 0#4 :=
  ⟨by decide, by decide, ⟨_, rfl⟩, ⟨_, rfl⟩, _, rfl, rfl⟩
theorem witness_CommandsWriteOnlyTheFrame : ∃ t, exec .encClearScreen State.reset = .next t := ⟨_, rfl⟩
theorem witness_OnlyParseBatteryWritesTheBattery :
    ∃ t, step { responded 12 with inbox := [.write 0 32 0x20] } = .next t ∧
      t.battStatus ≠ (responded 12).battStatus := ⟨_, rfl, by decide⟩
theorem witness_SpanChecksumsDependOnNothingHidden :
    isBuilder .encGetBattery = true ∧ ∃ s' t t' : State,
      s' = { State.reset with
        crcReg := s'.crcReg, crcResult := s'.crcResult, err := s'.err, cmd := s'.cmd, respCount := s'.respCount,
        battStatus := s'.battStatus, battMv := s'.battMv } ∧
      s'.crcReg ≠ State.reset.crcReg ∧
      exec .encGetBattery State.reset = .next t ∧ exec .encGetBattery s' = .next t' :=
  ⟨rfl, { State.reset with crcReg := 7, crcResult := 9, err := 5 }, _, _, rfl, by decide, rfl, rfl⟩
/-- The first and the last register of the list. -/
theorem witness_HostReadsRegisters :
    (pending [.read 0 32]).inbox = .read 0 32 :: [] ∧ (0x00, 0#32) ∈ registerReadings (pending [.read 0 32]) ∧
      (pending [.read 0x58 32]).inbox = .read 0x58 32 :: [] ∧
      (0x58, 0#32) ∈ registerReadings (pending [.read 0x58 32]) := by decide
/-- The last word of FRAME, the last word of RESP, and a written byte. -/
theorem witness_HostReadsBuffersLittleEndian :
    (pending [.read 0x7C 32]).inbox = .read 0x7C 32 :: [] ∧ 7 < 8 ∧ 0x7C = frameBase + 4 * 7 ∧
      2 < 3 ∧ 0x88 = respBase + 4 * 2 ∧ loadByte (framed [5]).mem (frameBase + 0) = some 5 := by decide
theorem witness_HostWritesPlainRegisters :
    (pending [.write 0x50 32 9]).inbox = .write 0x50 32 9 :: [] ∧
      (0x50, { pending [.write 0x50 32 9] with arg4 := 9 }) ∈ plainStores 9 (pending [.write 0x50 32 9]) :=
  ⟨rfl, by decide⟩
theorem witness_HostWritesOfTheConfigurationRecompute :
    (pending [.write 0x18 32 9]).inbox = .write 0x18 32 9 :: [] ∧
      (0x18, { pending [.write 0x18 32 9] with crcInit := 9 }) ∈ configurationStores 9 (pending [.write 0x18 32 9]) :=
  ⟨rfl, by decide⟩
/-- Orders 1, 32, 0 and 33. -/
theorem witness_HostWritesOfOrderAreChecked :
    (pending [.write 0x10 32 0x41]).inbox = .write 0x10 32 0x41 :: [] ∧ ((0x41#32).extractLsb' 0 6).toNat = 1 ∧
      ((0x60#32).extractLsb' 0 6).toNat = 32 ∧ ((0x40#32).extractLsb' 0 6).toNat = 0 ∧
      32 < ((0x21#32).extractLsb' 0 6).toNat := by decide
theorem witness_HostWritesBuffersLittleEndian :
    (pending [.write 0x80 32 9]).inbox = .write 0x80 32 9 :: [] ∧ 0 < 3 ∧ 0x80 = respBase + 4 * 0 ∧
      0x7C = frameBase + 4 * 7 := by decide
theorem witness_WritesOfReadOnlyRegistersAreIgnored :
    (pending [.write 0x34 32 5]).inbox = .write 0x34 32 5 :: [] ∧
      0x34 ∈ [0x04, 0x24, 0x28, 0x2C, 0x30, 0x34, 0x54, 0x58] := by decide
/-- An 8-bit read, a misaligned write, and the first and last reserved offsets. -/
theorem witness_IllegalAccessesEndInBusError :
    (pending [.read 0x60 8]).inbox = .read 0x60 8 :: [] ∧ 8 ≠ 32 ∧
      (pending [.write 0x62 32 0]).inbox = .write 0x62 32 0 :: [] ∧ 0x62 % 4 ≠ 0 ∧
      (pending [.read 0x38 32]).inbox = .read 0x38 32 :: [] ∧ 0x8C ≤ 0xFC := by decide
theorem witness_NonCommandWritesKeepResults :
    ∃ t, (pending [.write 0x10 32 8]).inbox = .write 0x10 32 8 :: [] ∧ 0x10 ≠ 0x00 ∧
      step (pending [.write 0x10 32 8]) = .next t := ⟨_, rfl, by decide, rfl⟩
theorem witness_PlatformResetRestoresTheResetState :
    (pending [.reset, .read 0 32]).inbox = .reset :: [.read 0 32] := rfl
theorem witness_EveryStepKeepsTheStateInvariant :
    ({ framed [1, 6, 0xAA, 0] with frameLen := 6, inbox := [.write 0 32 8] } : State).Inv ∧
      ∃ t, step { framed [1, 6, 0xAA, 0] with frameLen := 6, inbox := [.write 0 32 8] } = .next t :=
  ⟨⟨(framed_inv 6).orderLegal, rfl, rfl, (framed_inv 6).initDirectDerived, (framed_inv 6).errProduced,
    (framed_inv 6).memCanonical, fun _ => ⟨rfl, rfl⟩⟩, _, rfl⟩

end Sys2Proof.Tests
end

section
/-! The idle step: what accepting an input and stepping come to when the host has no access pending. -/

namespace Sys2Proof.Machine

/-- The block invents no work of its own: it has an input to accept only if the host gave it one (R7). -/
theorem acceptInput_of_inbox_nil {s : State} (h : s.inbox = []) : acceptInput s = .idle := by
  unfold acceptInput
  rw [h]

theorem step_of_acceptInput_idle {s : State} (h : acceptInput s = .idle) : step s = .next s := by
  unfold step
  rw [h]

/-- Settles O6: with nothing pending the input accepted is `idle`, and an idle step answers its own state. -/
theorem blockWithNothingPendingIsStill : Obligations.BlockWithNothingPendingIsStill := by
  unfold Obligations.BlockWithNothingPendingIsStill
  intro s hempty
  exact step_of_acceptInput_idle (acceptInput_of_inbox_nil hempty)

end Sys2Proof.Machine
end

section
/-! The host's side of the bus: what a step is for each kind of access, and the offsets of the ports. -/

namespace Sys2Proof.Machine

/-! ### Which port an offset reaches -/

theorem mem_windowMap_of_legalPort {off width : Nat} {p : Port} (h : legalPort off width = some p) :
    (off, p) ∈ windowMap := by
  obtain ⟨-, -, -, hlookup⟩ := (legalPort_eq_some off width p).mp h
  exact lookup_mem windowMap off p hlookup

/-- No two entries of the window share an offset, so every entry is the one its offset reaches. -/
theorem legalPort_of_mem_windowMap : ∀ e ∈ windowMap, legalPort e.1 32 = some e.2 := by decide

theorem offset_of_cmd : ∀ e ∈ windowMap, e.2 = .cmd → e.1 = 0x00 := by decide

theorem offset_of_crcOrder : ∀ e ∈ windowMap, e.2 = .crcOrder → e.1 = 0x10 := by decide

/-! ### What accepting each kind of access comes to -/

theorem step_of_acceptInput_done {s t : State} (h : acceptInput s = .done t) : step s = .next t := by
  unfold step
  rw [h]

theorem step_of_acceptInput_command {s t : State} {w : Word} {i : Instr}
    (h : acceptInput s = .command w t) (hd : decode w = .ok i) : step s = exec i t := by
  unfold step
  rw [h]
  simp only [hd]

theorem acceptInput_write {s : State} {off width : Nat} {w : Word} {rest : List Input}
    (h : s.inbox = .write off width w :: rest) :
    acceptInput s = hostWrite off width w { s with inbox := rest } := by
  unfold acceptInput
  rw [h]

/-- A read changes only what is pending and the response (R46). -/
theorem step_read {s : State} {off width : Nat} {rest : List Input} (h : s.inbox = .read off width :: rest) :
    step s = .next { s with inbox := rest, bus := hostRead s off width } := by
  refine step_of_acceptInput_done ?_
  unfold acceptInput
  rw [h]

/-- A write of any mapped register but CMD is `writePort` and a completed access on the bus (R38). -/
theorem step_write_port {s : State} {off : Nat} {w : Word} {rest : List Input} {p : Port}
    (h : s.inbox = .write off 32 w :: rest) (hmem : (off, p) ∈ windowMap) (hp : p ≠ .cmd) :
    step s = .next { writePort w { s with inbox := rest } p with bus := .writeDone } := by
  have hport : legalPort off 32 = some p := legalPort_of_mem_windowMap (off, p) hmem
  refine step_of_acceptInput_done ((acceptInput_write h).trans ?_)
  rcases hostWrite_cases off 32 w { s with inbox := rest } with ⟨hl, -⟩ | ⟨hl, -⟩ | ⟨q, -, hl, hw⟩
  · rw [hport] at hl; cases hl
  · rw [hport] at hl; exact absurd (Option.some.inj hl) hp
  · rw [hport] at hl; cases hl; exact hw

/-- What a host write that answers `t` has done when it does not reach CMD: nothing but the transfer error, or the store. -/
theorem step_write_next_cases {s t : State} {off width : Nat} {w : Word} {rest : List Input}
    (h : s.inbox = .write off width w :: rest) (hoff : off ≠ 0x00) (hstep : step s = .next t) :
    t = { s with inbox := rest, bus := .busError } ∨
    ∃ p, p ≠ .cmd ∧ (off, p) ∈ windowMap ∧
      t = { writePort w { s with inbox := rest } p with bus := .writeDone } := by
  rcases hostWrite_cases off width w { s with inbox := rest } with ⟨-, hw⟩ | ⟨hl, -⟩ | ⟨p, hp, hl, hw⟩
  · rw [step_of_acceptInput_done ((acceptInput_write h).trans hw)] at hstep
    cases hstep; exact .inl rfl
  · exact absurd (offset_of_cmd _ (mem_windowMap_of_legalPort hl) rfl) hoff
  · rw [step_of_acceptInput_done ((acceptInput_write h).trans hw)] at hstep
    cases hstep; exact .inr ⟨p, hp, mem_windowMap_of_legalPort hl, rfl⟩

/-! ### Writes of CRC_ORDER -/

theorem orderLegal_iff (n : BitVec 6) : orderLegal n = true ↔ 1 ≤ n.toNat ∧ n.toNat ≤ 32 := by
  simp [orderLegal, BitVec.le_def]

theorem writeOrder_legal {w : Word} (s : State) (h : orderLegal (w.extractLsb' 0 6) = true) :
    writeOrder w s = complete (recompute { s with crcOrder := w.extractLsb' 0 6 }) := by
  simp only [writeOrder, if_pos h]

theorem writeOrder_illegal {w : Word} (s : State) (h : ¬ orderLegal (w.extractLsb' 0 6) = true) :
    writeOrder w s = raiseError .badConfig s := by
  simp only [writeOrder, if_neg h]

/-! ### What a store leaves alone -/

/-- No store reads or writes the pending accesses. -/
theorem writePort_inbox_comm (w : Word) (s : State) (rest : List Input) (p : Port) :
    writePort w { s with inbox := rest } p = { writePort w s p with inbox := rest } := by
  cases p
  case crcOrder =>
    by_cases h : orderLegal (w.extractLsb' 0 6) = true
    · simp only [writePort, writeOrder_legal _ h]; rfl
    · simp only [writePort, writeOrder_illegal _ h]; rfl
  all_goals rfl

/-- Only the checked write of CRC_ORDER touches STATUS.ERR (R18, R19). -/
theorem writePort_err (w : Word) (s : State) {p : Port} (hp : p ≠ .crcOrder) : (writePort w s p).err = s.err := by
  cases p
  case crcOrder => exact absurd rfl hp
  all_goals rfl

/-- A store other than to CMD keeps the results of commands, CMD itself and the model's two counters. -/
theorem writePort_keeps_results (w : Word) (s : State) {p : Port} (hp : p ≠ .cmd) :
    (writePort w s p).crcReg = s.crcReg ∧ (writePort w s p).crcResult = s.crcResult ∧
      (writePort w s p).cmd = s.cmd ∧ (writePort w s p).battStatus = s.battStatus ∧
      (writePort w s p).battMv = s.battMv ∧ (writePort w s p).epoch = s.epoch ∧
      (writePort w s p).drawn = s.drawn := by
  cases p
  case cmd => exact absurd rfl hp
  case crcOrder =>
    by_cases h : orderLegal (w.extractLsb' 0 6) = true
    · simp [writePort, writeOrder_legal _ h]
    · simp [writePort, writeOrder_illegal _ h]
  all_goals exact ⟨rfl, rfl, rfl, rfl, rfl, rfl, rfl⟩

/-! ### The lists of the statements are read off the window -/

/-- Reserved bits read as 0: extending a register to a word puts zeros above it (R40). -/
theorem zero_append_eq_setWidth {n : Nat} (k : Nat) (x : BitVec n) : 0#k ++ x = x.setWidth (k + n) := by
  apply BitVec.eq_of_toNat_eq
  rw [BitVec.toNat_append, BitVec.toNat_setWidth_of_le (Nat.le_add_left n k)]
  simp

/-- The 21 registers of R13 are the first 21 entries of the window, and each reading is what `readPort` gives. -/
theorem registerReadings_eq_map_readPort (s : State) :
    registerReadings s = (windowMap.take 21).map fun e => (e.1, readPort s e.2) := by
  simp [registerReadings, windowMap, readPort, zero_append_eq_setWidth 28 s.err,
    zero_append_eq_setWidth 24 s.frameLen, zero_append_eq_setWidth 24 s.respCount,
    zero_append_eq_setWidth 26 s.crcOrder, zero_append_eq_setWidth 29 s.crcFlags,
    zero_append_eq_setWidth 7 s.battStatus, zero_append_eq_setWidth 16 s.battMv]

theorem hostRead_of_mem_registerReadings {s : State} {off : Nat} {v : Word} (h : (off, v) ∈ registerReadings s) :
    hostRead s off 32 = .readData v := by
  rw [registerReadings_eq_map_readPort] at h
  obtain ⟨e, he, hev⟩ := List.mem_map.mp h
  cases hev
  unfold hostRead
  rw [legalPort_of_mem_windowMap e (List.mem_of_mem_take he)]

/-- The ports of the registers whose write only stores. -/
def plainPorts : List (Nat × Port) :=
  [(0x08, .frameLen), (0x0C, .respCount), (0x1C, .crcXorOut), (0x40, .arg0), (0x44, .arg1), (0x48, .arg2),
   (0x4C, .arg3), (0x50, .arg4)]

theorem plainPorts_in_window : ∀ e ∈ plainPorts, e ∈ windowMap ∧ e.2 ≠ .cmd := by decide

theorem plainStores_eq_map_writePort (w : Word) (s : State) :
    plainStores w s = plainPorts.map fun e => (e.1, writePort w s e.2) := rfl

/-- A configuration store and the recompute that follows it are one `writePort` (R27). -/
theorem writePort_of_mem_configurationStores {w : Word} {s t : State} {off : Nat}
    (h : (off, t) ∈ configurationStores w s) :
    ∃ p, p ≠ .cmd ∧ (off, p) ∈ windowMap ∧ writePort w s p = recompute t := by
  simp only [configurationStores, List.mem_cons, Prod.mk.injEq, List.not_mem_nil, or_false] at h
  rcases h with ⟨rfl, rfl⟩ | ⟨rfl, rfl⟩ | ⟨rfl, rfl⟩
  · exact ⟨.crcPoly, by decide, by decide, rfl⟩
  · exact ⟨.crcInit, by decide, by decide, rfl⟩
  · exact ⟨.crcFlags, by decide, by decide, rfl⟩

/-! ### The statements about host accesses -/

/-- Settles O4: accepting a write of CMD answers `command`, and a step runs the command its word decodes to. -/
theorem stepRunsTheDecodedCommand : Obligations.StepRunsTheDecodedCommand := by
  unfold Obligations.StepRunsTheDecodedCommand
  intro s w rest i hin hdecode
  have haccept : acceptInput s = .command w { s with inbox := rest, cmd := w, bus := .writeDone } :=
    acceptInput_write hin
  exact step_of_acceptInput_command haccept hdecode

/-- Settles O43: the reading of each register is what a host read of its offset returns. -/
theorem hostReadsRegisters : Obligations.HostReadsRegisters := by
  unfold Obligations.HostReadsRegisters
  intro s rest off v hin hreading
  rw [step_read hin, hostRead_of_mem_registerReadings hreading]

/-- Settles O45: each plain store is `writePort` of its port. -/
theorem hostWritesPlainRegisters : Obligations.HostWritesPlainRegisters := by
  unfold Obligations.HostWritesPlainRegisters
  intro s rest off w t hin hstore
  rw [plainStores_eq_map_writePort] at hstore
  obtain ⟨⟨_, p⟩, hp, hstored⟩ := List.mem_map.mp hstore
  cases hstored
  obtain ⟨hmem, hcmd⟩ := plainPorts_in_window _ hp
  rw [step_write_port hin hmem hcmd, writePort_inbox_comm]

/-- Settles O46: `recompute` of the stored configuration is the three formulas of R24 to R26. -/
theorem hostWritesOfTheConfigurationRecompute : Obligations.HostWritesOfTheConfigurationRecompute := by
  unfold Obligations.HostWritesOfTheConfigurationRecompute
  intro s rest off w t hin hstore
  obtain ⟨p, hp, hmem, hstored⟩ := writePort_of_mem_configurationStores hstore
  rw [step_write_port hin hmem hp, writePort_inbox_comm, hstored]
  rfl

/-- Settles O47, by the two cases of the order check. -/
theorem hostWritesOfOrderAreChecked : Obligations.HostWritesOfOrderAreChecked := by
  unfold Obligations.HostWritesOfOrderAreChecked
  intro s rest w hin
  have hstep : step s = .next { writeOrder w { s with inbox := rest } with bus := .writeDone } :=
    step_write_port (p := .crcOrder) hin (by decide) (by decide)
  refine ⟨fun hlegal => ?_, fun hillegal => ?_⟩
  · rw [hstep, writeOrder_legal _ ((orderLegal_iff _).mpr hlegal)]
    rfl
  · rw [hstep, writeOrder_illegal _ (by rw [orderLegal_iff]; omega)]
    rfl

/-- Settles O36: a read changes only the bus, an illegal write too, and of the stores only that of CRC_ORDER, at 0x10,
touches STATUS.ERR. -/
theorem otherAccessesLeaveErr : Obligations.OtherAccessesLeaveErr := by
  unfold Obligations.OtherAccessesLeaveErr
  rintro s t x rest hin hstep (⟨off, width, rfl⟩ | ⟨off, width, w, rfl, hcmd, horder⟩)
  · rw [step_read hin] at hstep
    cases hstep; rfl
  · obtain rfl | ⟨p, -, hmem, rfl⟩ := step_write_next_cases hin hcmd hstep
    · rfl
    · have hp : p ≠ .crcOrder := fun h => horder (offset_of_crcOrder _ hmem h)
      exact writePort_err w { s with inbox := rest } hp

/-- Settles O51: an illegal write changes only the bus, a legal one is a store other than to CMD. -/
theorem nonCommandWritesKeepResults : Obligations.NonCommandWritesKeepResults := by
  unfold Obligations.NonCommandWritesKeepResults
  intro s t rest off width w hin hcmd hstep
  obtain rfl | ⟨p, hp, -, rfl⟩ := step_write_next_cases hin hcmd hstep
  · exact ⟨rfl, rfl, rfl, rfl, rfl, rfl, rfl⟩
  · exact writePort_keeps_results w { s with inbox := rest } hp

end Sys2Proof.Machine
end

section
/-! What a command leaves unchanged: the registers of the host, CRC_REG, CRC_RESULT and the bytes outside FRAME. -/

namespace Sys2Proof.Machine

/-! ### Refused commands -/

/-- The commands that R95 lists as raising a code. -/
theorem RaisedBy.command {i : Instr} {s : State} {e : ErrCode} (h : RaisedBy i s e) :
    i = .crcSpan ∨ i = .finalize ∨ i = .encSetWidgetList ∨ i = .parseBattery := by
  rcases h with ⟨-, rfl, -⟩ | ⟨-, rfl, -⟩ | ⟨-, rfl, -⟩ | ⟨-, rfl, -⟩ | ⟨-, rfl, -⟩ <;> decide

theorem RaisedBy.ne_start_feed_final {i : Instr} {s : State} {e : ErrCode} (h : RaisedBy i s e) :
    i ≠ .crcStart ∧ i ≠ .crcFeed ∧ i ≠ .crcFinal := by
  rcases h.command with rfl | rfl | rfl | rfl <;> decide

/-! ### Commands that complete -/

/-- The seven shapes of `Completes` as named cases. -/
theorem Completes.shapes {s : State} {motive : (i : Instr) → (u : State) → Completes i s u → Prop}
    (crcStart : ∀ h, motive .crcStart { s with crcReg := initDirect (cfgOf s) } h)
    (crcFeed : ∀ h, motive .crcFeed { s with
      crcReg := feedByte (cfgOf s) (s.crcReg &&& maskOf (cfgOf s).order) (feedOperand s) } h)
    (crcFinal : ∀ h, motive .crcFinal { s with crcResult := output (cfgOf s) s.crcReg } h)
    (crcSpan : ∀ start len h, start = (spanStart s).toNat → len = (spanLen s).toNat → start + len ≤ 32 →
      motive .crcSpan { noteDraw start len s with crcResult := spanChecksum s start len } h)
    (finalize : ∀ n h, n = s.frameLen.toNat → 2 ≤ n → n ≤ 32 → motive .finalize (finalizeFrame n s) h)
    (build : ∀ i n opc opt payload h, isBuilder i = true → n.toNat = payload.length + 6 → n.toNat ≤ 20 →
      motive i (buildFrame n opc opt payload s) h)
    (parseBattery : ∀ h, s.respCount.toNat = 12 → motive .parseBattery { s with
      battStatus := battStatusOf (respByte s 4) (respByte s 5) (respByte s 6)
      battMv := respByte s 9 ++ respByte s 8 } h)
    {i : Instr} {u : State} (h : Completes i s u) : motive i u h := by
  rcases id h with ⟨rfl, rfl⟩ | ⟨rfl, rfl⟩ | ⟨rfl, rfl⟩ | ⟨rfl, start, len, hstart, hlen, hcap, rfl⟩ |
    ⟨rfl, n, hn, h2, h32, rfl⟩ | ⟨hi, n, opc, opt, payload, hn, h20, rfl⟩ | ⟨rfl, h12, rfl⟩
  · exact crcStart h
  · exact crcFeed h
  · exact crcFinal h
  · exact crcSpan start len h hstart hlen hcap
  · exact finalize n h hn h2 h32
  · exact build i n opc opt payload h hi hn h20
  · exact parseBattery h h12

theorem ne_start_feed_parse_of_isBuilder {i : Instr} (h : isBuilder i = true) :
    i ≠ .crcStart ∧ i ≠ .crcFeed ∧ i ≠ .parseBattery := by
  cases i <;> simp [isBuilder] at h ⊢

/-! ### The registers of the host -/

theorem hostOwned_raiseError (e : ErrCode) (s : State) : HostOwnedUnchanged s (raiseError e s) := by
  constructor <;> simp

theorem hostOwned_complete {s u : State} (h : HostOwnedUnchanged s u) : HostOwnedUnchanged s (complete u) :=
  ⟨h.cmd, h.args, h.respCount, h.config, h.derived⟩

/-- Every shape of completion writes only CRC_REG, CRC_RESULT, the battery registers, FRAME and FRAME_LEN. -/
theorem Completes.hostOwned {i : Instr} {s u : State} (h : Completes i s u) : HostOwnedUnchanged s u := by
  cases h using Completes.shapes <;> constructor <;> simp

/-- Settles O37: a refused command changes only STATUS.ERR, and no shape of completion writes these registers. -/
theorem commandsLeaveTheHostsRegisters : Obligations.CommandsLeaveTheHostsRegisters := by
  unfold Obligations.CommandsLeaveTheHostsRegisters
  intro i s t hexec
  obtain ⟨e, -, rfl⟩ | ⟨u, hu, rfl⟩ := exec_next_cases hexec
  · exact hostOwned_raiseError e s
  · exact hostOwned_complete hu.hostOwned

/-- The configuration tuple is made of registers that belong to the host (R28). -/
theorem HostOwnedUnchanged.cfgOf_eq {s t : State} (h : HostOwnedUnchanged s t) : cfgOf t = cfgOf s := by
  obtain ⟨horder, hpoly, hinit, hxor, hflags⟩ := h.config
  simp only [cfgOf, flagRefIn, flagRefOut, flagDirect, horder, hpoly, hinit, hxor, hflags]

/-! ### CRC_REG and CRC_RESULT -/

/-- Completing leaves CRC_REG, or the command is CRC_START or CRC_FEED and leaves a register of `order` bits (R29). -/
theorem Completes.crcReg_cases {i : Instr} {s u : State} (h : Completes i s u) :
    (i ≠ .crcStart ∧ i ≠ .crcFeed ∧ u.crcReg = s.crcReg) ∨
    ((i = .crcStart ∨ i = .crcFeed) ∧ u.crcReg &&& maskOf s.crcOrder.toNat = u.crcReg) := by
  cases h using Completes.shapes with
  | crcStart => exact .inr ⟨.inl rfl, initDirect_masked (cfgOf s)⟩
  | crcFeed => exact .inr ⟨.inr rfl, feedByte_masked (cfgOf s) _ _ (and_maskOf_idem _ _)⟩
  | crcFinal => exact .inl ⟨by decide, by decide, rfl⟩
  | crcSpan start len => exact .inl ⟨by decide, by decide, noteDraw_crcReg start len s⟩
  | finalize n => exact .inl ⟨by decide, by decide, finalizeFrame_crcReg n s⟩
  | build _ n opc opt payload _ hi =>
    obtain ⟨hstart, hfeed, -⟩ := ne_start_feed_parse_of_isBuilder hi
    exact .inl ⟨hstart, hfeed, buildFrame_crcReg n opc opt payload s⟩
  | parseBattery => exact .inl ⟨by decide, by decide, rfl⟩

/-- Build ends with the Finalizer, so its CRC_RESULT is a span checksum too (R77). -/
theorem buildFrame_crcResult_masked (n opc opt : Byte) (payload : List Byte) (s : State) :
    (buildFrame n opc opt payload s).crcResult &&& maskOf s.crcOrder.toNat =
      (buildFrame n opc opt payload s).crcResult :=
  spanChecksum_masked { s with
    mem := storeBytes s.mem frameBase (startMarker :: n :: opc :: opt :: payload), frameLen := n } 0 (n.toNat - 2)

/-- Completing leaves CRC_RESULT for three commands, and for every other writes a value of `order` bits (R30). -/
theorem Completes.crcResult_cases {i : Instr} {s u : State} (h : Completes i s u) :
    ((i = .crcStart ∨ i = .crcFeed ∨ i = .parseBattery) ∧ u.crcResult = s.crcResult) ∨
    ((i ≠ .crcStart ∧ i ≠ .crcFeed ∧ i ≠ .parseBattery) ∧
      u.crcResult &&& maskOf s.crcOrder.toNat = u.crcResult) := by
  cases h using Completes.shapes with
  | crcStart => exact .inl ⟨by decide, rfl⟩
  | crcFeed => exact .inl ⟨by decide, rfl⟩
  | crcFinal => exact .inr ⟨by decide, output_masked (cfgOf s) s.crcReg⟩
  | crcSpan start len => exact .inr ⟨by decide, spanChecksum_masked s start len⟩
  | finalize n => exact .inr ⟨by decide, spanChecksum_masked s 0 (n - 2)⟩
  | build _ n opc opt payload _ hi =>
    exact .inr ⟨ne_start_feed_parse_of_isBuilder hi, buildFrame_crcResult_masked n opc opt payload s⟩
  | parseBattery => exact .inl ⟨by decide, rfl⟩

/-- Settles O38: neither a refusal nor another command's completion writes CRC_REG, and both writers leave `order` bits. -/
theorem runningRegisterHasTwoWriters : Obligations.RunningRegisterHasTwoWriters := by
  unfold Obligations.RunningRegisterHasTwoWriters
  intro i s t _ horder hexec
  obtain ⟨e, he, rfl⟩ | ⟨u, hu, rfl⟩ := exec_next_cases hexec
  · obtain ⟨hstart, hfeed, -⟩ := he.ne_start_feed_final
    exact ⟨fun _ _ => rfl, fun hi => absurd hi (not_or.mpr ⟨hstart, hfeed⟩)⟩
  · obtain ⟨hstart, hfeed, hreg⟩ | ⟨hi, hmasked⟩ := hu.crcReg_cases
    · exact ⟨fun _ _ => hreg, fun hi => absurd hi (not_or.mpr ⟨hstart, hfeed⟩)⟩
    · exact ⟨fun hstart hfeed => absurd hi (not_or.mpr ⟨hstart, hfeed⟩), fun _ => lt_of_masked horder hmasked⟩

/-- Settles O39: a refusal leaves CRC_RESULT and its code is not 0, and every completion leaves it or cuts it to `order`
bits. -/
theorem resultIsBelowTwoToTheOrder : Obligations.ResultIsBelowTwoToTheOrder := by
  unfold Obligations.ResultIsBelowTwoToTheOrder
  intro i s t _ horder hexec
  obtain ⟨e, he, rfl⟩ | ⟨u, hu, rfl⟩ := exec_next_cases hexec
  · obtain ⟨-, -, hfinal⟩ := he.ne_start_feed_final
    exact ⟨fun _ => rfl, fun hi => absurd hi hfinal, fun _ herr => absurd herr he.err_ne⟩
  · obtain ⟨hi, hkept⟩ | ⟨⟨hstart, hfeed, hparse⟩, hmasked⟩ := hu.crcResult_cases
    · have hother : i ≠ .crcFinal ∧ ¬ (i = .crcSpan ∨ i = .finalize ∨ isBuilder i = true) := by
        rcases hi with rfl | rfl | rfl <;> decide
      exact ⟨fun _ => hkept, fun h => absurd h hother.1, fun h => absurd h hother.2⟩
    · have hlt : u.crcResult.toNat < 2 ^ s.crcOrder.toNat := lt_of_masked horder hmasked
      exact ⟨fun hi => absurd hi (by simp [hstart, hfeed, hparse]), fun _ => hlt, fun _ _ => hlt⟩

/-! ### FRAME and FRAME_LEN -/

/-- The bytes that completing writes are those of a frame, which lies inside FRAME (R33, R34). -/
theorem Completes.loadByte_outside {i : Instr} {s u : State} (h : Completes i s u) {a : Nat}
    (ha : a < frameBase ∨ frameBase + frameCap ≤ a) : loadByte u.mem a = loadByte s.mem a := by
  rw [frameCap] at ha
  cases h using Completes.shapes with
  | finalize n _ _ h2 h32 => exact finalizeFrame_elsewhere n s a (by omega)
  | build _ n opc opt payload _ _ hn h20 =>
    exact (buildFrame_builds n opc opt payload s hn).elsewhere a (by simp only [List.length_cons]; omega)
  | crcSpan start len => rw [noteDraw_mem]
  | _ => rfl

theorem Completes.mem_of_ne {i : Instr} {s u : State} (h : Completes i s u) (hfin : i ≠ .finalize)
    (hbuild : isBuilder i = false) : u.mem = s.mem := by
  cases h using Completes.shapes with
  | finalize => exact absurd rfl hfin
  | build _ _ _ _ _ _ hi => rw [hi] at hbuild; cases hbuild
  | crcSpan start len => exact noteDraw_mem start len s
  | _ => rfl

theorem Completes.frameLen_of_ne {i : Instr} {s u : State} (h : Completes i s u) (hbuild : isBuilder i = false) :
    u.frameLen = s.frameLen := by
  cases h using Completes.shapes with
  | build _ _ _ _ _ _ hi => rw [hi] at hbuild; cases hbuild
  | crcSpan start len => exact noteDraw_frameLen start len s
  | finalize n => exact finalizeFrame_frameLen n s
  | _ => rfl

/-- Settles O40: a refused command writes no byte, and a completing one only the bytes of its frame. -/
theorem commandsWriteOnlyTheFrame : Obligations.CommandsWriteOnlyTheFrame := by
  unfold Obligations.CommandsWriteOnlyTheFrame
  intro i s t hexec
  obtain ⟨e, -, rfl⟩ | ⟨u, hu, rfl⟩ := exec_next_cases hexec
  · exact ⟨fun _ _ => rfl, fun _ _ => rfl, fun _ => rfl⟩
  · exact ⟨fun _ ha => hu.loadByte_outside ha, hu.mem_of_ne, hu.frameLen_of_ne⟩

end Sys2Proof.Machine
end

section
/-! Every step keeps the invariant: commands, stores, the reset, and steps that change the bus alone. -/

namespace Sys2Proof.Machine

/-! ### Commands -/

/-- The part of the invariant about the configuration rests on registers of the host alone; what is left to show after a
command is the rest. -/
theorem State.Inv.of_hostOwned {s t : State} (hs : s.Inv) (h : HostOwnedUnchanged s t) (herr : t.err.toNat ≤ 5)
    (hmem : t.mem.wf = true) (hbatt : battValid t = false → t.battStatus = 0#25 ∧ t.battMv = 0#16) : t.Inv := by
  obtain ⟨horder, -⟩ := h.config
  obtain ⟨hmask, hhigh, hseed⟩ := h.derived
  refine ⟨?_, ?_, ?_, ?_, herr, hmem, hbatt⟩
  · rw [horder]; exact hs.orderLegal
  · rw [hmask, horder]; exact hs.maskDerived
  · rw [hhigh, horder]; exact hs.highBitDerived
  · rw [hseed, h.cfgOf_eq]; exact hs.initDirectDerived

theorem errBits_le (e : ErrCode) : (errBits e).toNat ≤ 5 := by cases e <;> decide

theorem raiseError_inv {s : State} (e : ErrCode) (hs : s.Inv) : (raiseError e s).Inv :=
  hs.of_hostOwned (hostOwned_raiseError e s) (errBits_le e) hs.memCanonical hs.battUnread

theorem complete_inv {s : State} (hs : s.Inv) : (complete s).Inv := raiseError_inv .ok hs

theorem Completes.mem_wf {i : Instr} {s u : State} (h : Completes i s u) (hm : s.mem.wf = true) : u.mem.wf = true := by
  cases h using Completes.shapes with
  | finalize n _ _ h2 h32 => exact finalizeFrame_wf n s h2 h32 hm
  | build _ n opc opt payload _ _ hn h20 => exact buildFrame_wf n opc opt payload s hn (by omega) hm
  | crcSpan start len => rwa [noteDraw_mem]
  | _ => exact hm

theorem battStatusOf_valid (charger charging percent : Byte) :
    (battStatusOf charger charging percent).getLsbD 24 = true := by
  simp only [battStatusOf, BitVec.getLsbD_append]
  rfl

/-- Only PARSE_BATTERY writes the battery registers, and it sets VALID (R93, R94). -/
theorem Completes.batt_cases {i : Instr} {s u : State} (h : Completes i s u) :
    (u.battStatus = s.battStatus ∧ u.battMv = s.battMv) ∨ battValid u = true := by
  cases h using Completes.shapes with
  | parseBattery => exact .inr (battStatusOf_valid _ _ _)
  | _ => exact .inl (by simp)

theorem Completes.err {i : Instr} {s u : State} (h : Completes i s u) : u.err = s.err := by
  cases h using Completes.shapes <;> simp

theorem Completes.inv {i : Instr} {s u : State} (h : Completes i s u) (hs : s.Inv) : u.Inv := by
  refine hs.of_hostOwned h.hostOwned (h.err ▸ hs.errProduced) (h.mem_wf hs.memCanonical) fun hinvalid => ?_
  obtain ⟨hstatus, hmv⟩ | hvalid := h.batt_cases
  · rw [battValid, hstatus] at hinvalid
    rw [hstatus, hmv]
    exact hs.battUnread hinvalid
  · rw [hvalid] at hinvalid; cases hinvalid

theorem exec_inv {i : Instr} {s t : State} (hs : s.Inv) (h : exec i s = .next t) : t.Inv := by
  obtain ⟨e, -, rfl⟩ | ⟨u, hu, rfl⟩ := exec_next_cases h
  · exact raiseError_inv e hs
  · exact complete_inv (hu.inv hs)

/-! ### Stores -/

/-- The recompute makes the derived registers right whatever they held (R27). -/
theorem recompute_inv {s : State} (horder : 1 ≤ s.crcOrder.toNat ∧ s.crcOrder.toNat ≤ 32) (herr : s.err.toNat ≤ 5)
    (hmem : s.mem.wf = true) (hbatt : battValid s = false → s.battStatus = 0#25 ∧ s.battMv = 0#16) :
    (recompute s).Inv :=
  ⟨horder, rfl, rfl, rfl, herr, hmem, hbatt⟩

theorem writeOrder_inv (w : Word) {s : State} (hs : s.Inv) : (writeOrder w s).Inv := by
  by_cases h : orderLegal (w.extractLsb' 0 6) = true
  · rw [writeOrder_legal s h]
    exact complete_inv (recompute_inv ((orderLegal_iff _).mp h) hs.errProduced hs.memCanonical hs.battUnread)
  · rw [writeOrder_illegal s h]
    exact raiseError_inv .badConfig hs

/-- A store of a buffer word of the window keeps the memory canonical (R33, R34). -/
theorem storeWord_wf {off a : Nat} {p : Port} (w : Word) {m : Memory} (hmem : (off, p) ∈ windowMap)
    (hp : p = .frameWord a ∨ p = .respWord a) (hm : m.wf = true) : (storeBytes m a (wordBytes w)).wf = true :=
  storeBytes_wf m a (wordBytes w) (windowMap_buffers (off, p) hmem a hp) hm

theorem writePort_inv {off : Nat} {p : Port} (w : Word) {s : State} (hmem : (off, p) ∈ windowMap) (hs : s.Inv) :
    (writePort w s p).Inv := by
  obtain ⟨horder, hmask, hhigh, hseed, herr, hwf, hbatt⟩ := id hs
  cases p
  case crcOrder => exact writeOrder_inv w hs
  case crcPoly | crcInit | crcFlags => exact recompute_inv horder herr hwf hbatt
  case crcXorOut => exact ⟨horder, hmask, hhigh, hseed.trans (initDirect_xorOut (cfgOf s) w).symm, herr, hwf, hbatt⟩
  case frameWord a => exact ⟨horder, hmask, hhigh, hseed, herr, storeWord_wf w hmem (.inl rfl) hwf, hbatt⟩
  case respWord a => exact ⟨horder, hmask, hhigh, hseed, herr, storeWord_wf w hmem (.inr rfl) hwf, hbatt⟩
  all_goals exact ⟨horder, hmask, hhigh, hseed, herr, hwf, hbatt⟩

/-! ### The bus, the reset and the step -/

/-- The invariant says nothing of the pending accesses, the response or CMD. -/
theorem State.Inv.of_bus {s : State} (hs : s.Inv) (rest : List Input) (b : BusResponse) (w : Word) :
    ({ s with inbox := rest, bus := b, cmd := w } : State).Inv :=
  ⟨hs.orderLegal, hs.maskDerived, hs.highBitDerived, hs.initDirectDerived, hs.errProduced, hs.memCanonical,
    hs.battUnread⟩

theorem reset_inv : State.reset.Inv :=
  ⟨by decide, by decide, by decide, by decide, by decide, by decide, fun _ => ⟨rfl, rfl⟩⟩

theorem platformReset_inv (s : State) : (platformReset s).Inv :=
  ⟨reset_inv.orderLegal, reset_inv.maskDerived, reset_inv.highBitDerived, reset_inv.initDirectDerived,
    reset_inv.errProduced, reset_inv.memCanonical, reset_inv.battUnread⟩

/-- Settles O55, by the cases of a step: each is a store, a reset, a command or a change of the bus alone. -/
theorem everyStepKeepsTheStateInvariant : Obligations.EveryStepKeepsTheStateInvariant := by
  unfold Obligations.EveryStepKeepsTheStateInvariant
  intro s t hs hstep
  rcases step_cases s with ⟨-, h⟩ | ⟨off, width, rest, -, h⟩ | ⟨rest, -, h⟩ | ⟨off, width, w, rest, -, -, h⟩ |
    ⟨off, width, w, rest, p, -, -, hport, h⟩ | ⟨off, width, w, rest, i, -, -, -, h⟩ |
    ⟨off, width, w, rest, e, -, -, -, h⟩ <;> rw [h] at hstep
  · cases hstep; exact hs
  · cases hstep; exact hs.of_bus rest (hostRead s off width) s.cmd
  · cases hstep; exact platformReset_inv { s with inbox := rest }
  · cases hstep; exact hs.of_bus rest .busError s.cmd
  · cases hstep
    have haccepted : ({ s with inbox := rest } : State).Inv := hs.of_bus rest s.bus s.cmd
    exact (writePort_inv w (mem_windowMap_of_legalPort hport) haccepted).of_bus _ .writeDone _
  · exact exec_inv (hs.of_bus rest .writeDone w) hstep
  · cases hstep; exact raiseError_inv .illegalCmd (hs.of_bus rest .writeDone w)

end Sys2Proof.Machine
end

section
/-! Accesses of the buffer words, writes of the read-only registers, and illegal accesses (R38 to R41, R44, R98). -/

namespace Sys2Proof.Machine

/-! ### The byte lanes of a word (R41) -/

/-- Which byte a bit of a joined word comes from: the first byte is the lowest (R41). -/
theorem joinBytes_getLsbD (b0 b1 b2 b3 : Byte) (i : Nat) :
    (joinBytes b0 b1 b2 b3).getLsbD i =
      if i < 8 then b0.getLsbD i else if i < 16 then b1.getLsbD (i - 8)
      else if i < 24 then b2.getLsbD (i - 16) else b3.getLsbD (i - 24) := by
  unfold joinBytes
  rw [BitVec.getLsbD_append, BitVec.getLsbD_append, BitVec.getLsbD_append]
  grind

/-- A joined word holds its `j`-th byte in bits [8j+7:8j]. -/
theorem joinBytes_lane (f : Nat → Byte) {j : Nat} (hj : j < 4) :
    (joinBytes (f 0) (f 1) (f 2) (f 3)).extractLsb' (8 * j) 8 = f j := by
  apply BitVec.eq_of_getLsbD_eq
  intro i hi
  rw [BitVec.getLsbD_extractLsb', joinBytes_getLsbD]
  interval_cases j <;> grind

theorem wordBytes_getElem? (w : Word) {j : Nat} (hj : j < 4) :
    (wordBytes w)[j]? = some (w.extractLsb' (8 * j) 8) := by
  interval_cases j <;> rfl

/-- A word is determined by its four lanes: bit `i` is bit `i mod 8` of lane `i div 8`. -/
theorem word_eq_of_lanes {v w : Word}
    (h : ∀ j, j < 4 → v.extractLsb' (8 * j) 8 = w.extractLsb' (8 * j) 8) : v = w := by
  apply BitVec.eq_of_getLsbD_eq
  intro i hi
  have hlane := congrArg (·.getLsbD (i % 8)) (h (i / 8) (by omega))
  have hmod : i % 8 < 8 := Nat.mod_lt _ (by decide)
  simpa [BitVec.getLsbD_extractLsb', hmod, Nat.div_add_mod] using hlane

/-! ### Reading and writing a buffer word -/

theorem readByte_of_loadByte {s : State} {a : Nat} {b : Byte} (h : loadByte s.mem a = some b) :
    readByte s a = b := by
  simp only [readByte, h]

theorem readBuffer_lane (s : State) (a : Nat) {j : Nat} (hj : j < 4) :
    (readBuffer s a).extractLsb' (8 * j) 8 = readByte s (a + j) :=
  joinBytes_lane (fun k => readByte s (a + k)) hj

/-- Where the four bytes of `w` have been written, the buffer shows `w`. -/
theorem readBuffer_of_loaded {s : State} {a : Nat} {w : Word}
    (h : ∀ j, j < 4 → loadByte s.mem (a + j) = some (w.extractLsb' (8 * j) 8)) : readBuffer s a = w :=
  word_eq_of_lanes fun j hj => (readBuffer_lane s a hj).trans (readByte_of_loadByte (h j hj))

theorem frameWord_in_window : ∀ k, k < 8 →
    (frameBase + 4 * k, Port.frameWord (frameBase + 4 * k)) ∈ windowMap := by decide

theorem respWord_in_window : ∀ k, k < 3 →
    (respBase + 4 * k, Port.respWord (respBase + 4 * k)) ∈ windowMap := by decide

/-- Every word of FRAME and of RESP is mapped, to the port of its own offset (R13). -/
theorem bufferWord_in_window {off : Nat}
    (h : (∃ k, k < 8 ∧ off = frameBase + 4 * k) ∨ (∃ k, k < 3 ∧ off = respBase + 4 * k)) :
    ∃ p, (off, p) ∈ windowMap ∧ (p = .frameWord off ∨ p = .respWord off) := by
  rcases h with ⟨k, hk, rfl⟩ | ⟨k, hk, rfl⟩
  · exact ⟨_, frameWord_in_window k hk, .inl rfl⟩
  · exact ⟨_, respWord_in_window k hk, .inr rfl⟩

theorem hostRead_of_mem_windowMap {off : Nat} {p : Port} (s : State) (h : (off, p) ∈ windowMap) :
    hostRead s off 32 = .readData (readPort s p) := by
  unfold hostRead
  rw [legalPort_of_mem_windowMap (off, p) h]

theorem hostRead_bufferWord {off : Nat} {p : Port} (s : State) (hmem : (off, p) ∈ windowMap)
    (hp : p = .frameWord off ∨ p = .respWord off) : hostRead s off 32 = .readData (readBuffer s off) := by
  rw [hostRead_of_mem_windowMap s hmem]
  rcases hp with rfl | rfl <;> rfl

theorem step_write_bufferWord {s : State} {off : Nat} {w : Word} {rest : List Input} {p : Port}
    (h : s.inbox = .write off 32 w :: rest) (hmem : (off, p) ∈ windowMap)
    (hp : p = .frameWord off ∨ p = .respWord off) :
    step s = .next { s with inbox := rest, bus := .writeDone, mem := storeBytes s.mem off (wordBytes w) } := by
  rcases hp with rfl | rfl <;> exact step_write_port h hmem nofun

/-- Settles O44: the word read is `readBuffer`, whose lanes are the bytes of the four offsets. -/
theorem hostReadsBuffersLittleEndian : Obligations.HostReadsBuffersLittleEndian := by
  unfold Obligations.HostReadsBuffersLittleEndian
  intro s rest off hin hoff
  obtain ⟨p, hmem, hp⟩ := bufferWord_in_window hoff
  refine ⟨readBuffer s off, ?_, fun j b hj hb => ?_⟩
  · rw [step_read hin, hostRead_bufferWord s hmem hp]
  · exact (readBuffer_lane s off hj).trans (readByte_of_loadByte hb)

/-- Settles O48: the step is one `storeBytes` of the word's lanes, and a word whose lanes are stored reads back. -/
theorem hostWritesBuffersLittleEndian : Obligations.HostWritesBuffersLittleEndian := by
  unfold Obligations.HostWritesBuffersLittleEndian
  intro s rest off w hin hoff
  obtain ⟨p, hmem, hp⟩ := bufferWord_in_window hoff
  have hstored : ∀ j, j < 4 → loadByte (storeBytes s.mem off (wordBytes w)) (off + j) =
      some (w.extractLsb' (8 * j) 8) := fun j hj =>
    loadByte_storeBytes_inside _ _ _ _ _ (wordBytes_getElem? w hj)
  refine ⟨_, step_write_bufferWord hin hmem hp, rfl, hstored, fun a ha => ?_, ?_⟩
  · exact loadByte_storeBytes_outside s.mem off (wordBytes w) a ha
  · rw [hostRead_bufferWord _ hmem hp, readBuffer_of_loaded hstored]

/-! ### Illegal accesses (R39, R44, R98) -/

/-- What R13 maps: multiples of 4 below 0x8C, the three reserved offsets left out. -/
theorem offset_of_mem_windowMap : ∀ e ∈ windowMap,
    e.1 % 4 = 0 ∧ e.1 ≠ 0x38 ∧ e.1 ≠ 0x3C ∧ e.1 ≠ 0x5C ∧ e.1 < 0x8C := by decide

theorem legalPort_illegal {off width : Nat}
    (h : width ≠ 32 ∨ off % 4 ≠ 0 ∨ off = 0x38 ∨ off = 0x3C ∨ off = 0x5C ∨ 0x8C ≤ off) :
    legalPort off width = none := by
  cases hport : legalPort off width with
  | none => rfl
  | some p =>
    obtain ⟨-, -, hwidth, -⟩ := (legalPort_eq_some off width p).mp hport
    have hoffset := offset_of_mem_windowMap _ (mem_windowMap_of_legalPort hport)
    omega

theorem hostRead_illegal {off width : Nat} (s : State) (h : legalPort off width = none) :
    hostRead s off width = .busError := by
  unfold hostRead
  rw [h]

theorem step_write_illegal {s : State} {off width : Nat} {w : Word} {rest : List Input}
    (h : s.inbox = .write off width w :: rest) (hport : legalPort off width = none) :
    step s = .next { s with inbox := rest, bus := .busError } := by
  refine step_of_acceptInput_done ((acceptInput_write h).trans ?_)
  unfold hostWrite
  rw [hport]

/-- Settles O50: no such access reaches a port, so a read and a write both change only the response. -/
theorem illegalAccessesEndInBusError : Obligations.IllegalAccessesEndInBusError := by
  unfold Obligations.IllegalAccessesEndInBusError
  intro s rest off width w hin hillegal
  have hport := legalPort_illegal hillegal
  rcases hin with hread | hwrite
  · rw [step_read hread, hostRead_illegal s hport]
  · exact step_write_illegal hwrite hport

/-! ### Writes of read-only registers (R40) -/

/-- The ports of the registers the host can only read. -/
def readOnlyPorts : List (Nat × Port) :=
  [(0x04, .status), (0x24, .crcInitDirect), (0x28, .crcMask), (0x2C, .crcHighBit), (0x30, .crcReg),
   (0x34, .crcResult), (0x54, .battStatus), (0x58, .battMv)]

theorem readOnlyPorts_in_window : ∀ e ∈ readOnlyPorts, e ∈ windowMap ∧ e.2 ≠ .cmd := by decide

theorem writePort_readOnly (w : Word) (s : State) : ∀ e ∈ readOnlyPorts, writePort w s e.2 = s := by
  simp [readOnlyPorts, writePort]

/-- Settles O49: the eight offsets are those of `readOnlyPorts`, whose stores are the identity. -/
theorem writesOfReadOnlyRegistersAreIgnored : Obligations.WritesOfReadOnlyRegistersAreIgnored := by
  unfold Obligations.WritesOfReadOnlyRegistersAreIgnored
  intro s rest off w hin hoff
  have hlisted : off ∈ readOnlyPorts.map Prod.fst := hoff
  obtain ⟨⟨_, p⟩, hp, rfl⟩ := List.mem_map.mp hlisted
  obtain ⟨hmem, hcmd⟩ := readOnlyPorts_in_window _ hp
  rw [step_write_port hin hmem hcmd, writePort_readOnly w _ _ hp]

end Sys2Proof.Machine
end

section
/-! The command word: its two fields (R52), the command map held against the codes and against R53's list of illegal codes,
and what the decoder answers in those terms. -/

namespace Sys2Proof.Machine

/-! ### The two fields of a command word -/

/-- A word is a command's encoding exactly when RSV is 0 and CODE is that command's code. -/
theorem eq_encode_iff (w : Word) (i : Instr) :
    w = encode i ↔ w.extractLsb' 8 24 = 0#24 ∧ w.extractLsb' 0 8 = code i := by
  constructor
  · rintro rfl
    exact ⟨BitVec.extractLsb'_append_eq_left, BitVec.extractLsb'_append_eq_right⟩
  · rintro ⟨hrsv, hcode⟩
    have hsplit : w.extractLsb' 8 24 ++ w.extractLsb' 0 8 = w := BitVec.extractLsb'_append_extractLsb'
    rw [← hsplit, hrsv, hcode, encode]

/-! ### The command map (R53) -/

theorem code_of_mem_commandMap : ∀ e ∈ commandMap, e.1 = code e.2 := by decide

theorem lookup_code (i : Instr) : commandMap.lookup (code i) = some i := by
  cases i <;> rfl

/-- The map sends each command's code to it and nothing else to it. -/
theorem lookup_commandMap_eq_some_iff (c : Byte) (i : Instr) : commandMap.lookup c = some i ↔ c = code i := by
  constructor
  · intro h
    exact code_of_mem_commandMap (c, i) (lookup_mem commandMap c i h)
  · rintro rfl
    exact lookup_code i

/-- The two lists of R53 complement each other: of the 256 bytes, those it calls illegal are those the map leaves out. -/
theorem codeIllegal_eq_isNone_lookup : ∀ c : Byte, codeIllegal c = (commandMap.lookup c).isNone := by decide

/-! ### The decoder and the well-formedness check -/

theorem decode_eq_ok_iff (w : Word) (i : Instr) :
    decode w = .ok i ↔ w.extractLsb' 8 24 = 0#24 ∧ commandMap.lookup (w.extractLsb' 0 8) = some i := by
  unfold decode
  by_cases hrsv : w.extractLsb' 8 24 = 0#24
  · cases commandMap.lookup (w.extractLsb' 0 8) <;> simp [hrsv]
  · simp [hrsv]

/-- RSV is looked at before CODE (R52). -/
theorem decode_of_rsv_ne_zero {w : Word} (h : w.extractLsb' 8 24 ≠ 0#24) : decode w = .error .reservedBitsSet :=
  if_neg h

theorem wordWellFormed_iff (w : Word) :
    wordWellFormed w = true ↔
      w.extractLsb' 8 24 = 0#24 ∧ ∃ i, commandMap.lookup (w.extractLsb' 0 8) = some i := by
  simp [wordWellFormed, rsvClear, codeListed, codeIllegal_eq_isNone_lookup, Option.isSome_iff_exists]

theorem exists_decode_ok_iff (w : Word) : (∃ i, decode w = .ok i) ↔ wordWellFormed w = true := by
  simp only [decode_eq_ok_iff, exists_and_left, wordWellFormed_iff]

theorem exists_decode_error_iff (w : Word) : (∃ e, decode w = .error e) ↔ wordWellFormed w = false := by
  rw [← Bool.not_eq_true, ← exists_decode_ok_iff]
  cases decode w <;> simp

/-! ### The statements about the encoding -/

/-- Settles O1: both sides say that RSV is 0 and that CODE is the command's code. -/
theorem decodeInvertsEncode : Obligations.DecodeInvertsEncode := by
  unfold Obligations.DecodeInvertsEncode
  intro w i
  rw [decode_eq_ok_iff, lookup_commandMap_eq_some_iff, eq_encode_iff]

/-- Settles O2, from the two lists of R53 being complements. -/
theorem decoderAcceptsExactlyWellFormedWords : Obligations.DecoderAcceptsExactlyWellFormedWords := by
  unfold Obligations.DecoderAcceptsExactlyWellFormedWords
  intro w
  exact ⟨exists_decode_ok_iff w, exists_decode_error_iff w⟩

theorem decode_encode (i : Instr) : decode (encode i) = .ok i := (decodeInvertsEncode _ i).mpr rfl

/-- Settles O3: six of the words are encodings, and the last has bit 8 set. -/
theorem sampleWordsDecodeToTheirCommands : Obligations.SampleWordsDecodeToTheirCommands := by
  unfold Obligations.SampleWordsDecodeToTheirCommands
  exact ⟨decode_encode .crcStart, decode_encode .crcSpan, decode_encode .finalize, decode_encode .encSetClock,
    decode_encode .encSetWidgetList, decode_encode .parseBattery, decode_of_rsv_ne_zero (by decide)⟩

/-! ### A word that is no command -/

/-- Whatever is wrong with the word, the block reports the same code (R56). -/
theorem rejectCommand_eq_raiseError (e : DecodeError) (s : State) :
    rejectCommand e s = raiseError .illegalCmd s := by
  cases e <;> rfl

theorem acceptInput_write_cmd {s : State} {w : Word} {rest : List Input} (h : s.inbox = .write 0x00 32 w :: rest) :
    acceptInput s = .command w { s with inbox := rest, cmd := w, bus := .writeDone } :=
  acceptInput_write h

theorem step_of_acceptInput_rejected {s t : State} {w : Word} {e : DecodeError}
    (h : acceptInput s = .command w t) (hd : decode w = .error e) :
    step s = .next (raiseError .illegalCmd t) := by
  unfold step
  rw [h]
  simp only [hd, rejectCommand_eq_raiseError]

/-- Settles O5: the decoder refuses the word, and the refusal raises ILLEGAL_CMD on the state in which CMD is stored. -/
theorem wordThatIsNoCommandSetsOnlyErr : Obligations.WordThatIsNoCommandSetsOnlyErr := by
  unfold Obligations.WordThatIsNoCommandSetsOnlyErr
  intro s w rest hin hillFormed
  obtain ⟨e, hrefused⟩ := (exists_decode_error_iff w).mpr hillFormed
  exact step_of_acceptInput_rejected (acceptInput_write_cmd hin) hrefused

end Sys2Proof.Machine
end

section
/-! The CRC functions bit by bit (R58 to R61), and what of the configuration they read. -/

namespace Sys2Proof.Machine

/-! ### Reflection (R58) -/

/-- Reflecting twice gives back the low `n` bits: bit `n-1-(n-1-i)` is bit `i`. -/
theorem reflect_reflect {v : Word} {n : Nat} (hn : n ≤ 32) (hv : v.toNat < 2 ^ n) :
    reflect (reflect v n) n = v := by
  apply BitVec.eq_of_getLsbD_eq
  intro i _
  rw [reflect_getLsbD _ n i hn, reflect_getLsbD v n _ hn]
  by_cases hi : i < n
  · have hback : n - 1 - (n - 1 - i) = i := by omega
    simp [hi, hback, show n - 1 - i < n by omega]
  · have hhigh : v.getLsbD i = false := by
      rw [← BitVec.testBit_toNat]
      exact Nat.testBit_lt_two_pow (hv.trans_le (Nat.pow_le_pow_right (by decide) (by omega)))
    simp [hi, hhigh]

/-- Reflecting one bit leaves it where it is. -/
theorem reflect_one (v : Word) : reflect v 1 = v &&& maskOf 1 := by
  apply BitVec.eq_of_getLsbD_eq
  intro i _
  rw [reflect_getLsbD v 1 i (by decide), BitVec.getLsbD_and, maskOf_getLsbD (by decide)]
  by_cases hi : i = 0 <;> simp [hi]

/-- Of a reflected byte, bit `j` is the byte's bit `7-j`. -/
theorem reflect_byte_getLsbD (b : Byte) {j : Nat} (hj : j < 8) :
    (reflect (b.setWidth 32) 8).getLsbD j = b.getLsbD (7 - j) := by
  rw [reflect_getLsbD _ 8 j (by decide), BitVec.getLsbD_setWidth]
  simp [hj, show 7 - j < 32 by omega]

/-- Settles O8: bits and bound hold of every reflection; a value below `2^n` has no other bits, so reflecting it twice, or
one bit of it, gives it back. -/
theorem reflectReversesTheBits : Obligations.ReflectReversesTheBits := by
  unfold Obligations.ReflectReversesTheBits
  intro v n _ hn hv
  refine ⟨fun i hi => ?_, reflect_lt v n hn, reflect_reflect hn hv, ?_⟩
  · rw [reflect_getLsbD v n i hn, decide_eq_true hi, Bool.true_and]
  · rintro rfl
    rw [reflect_one, and_maskOf_of_lt hn hv]

/-! ### The shift step (R59) -/

/-- Bit `j` of a shift step: the register's bit below it, flipped by the polynomial when the feedback bit is set. -/
theorem shiftStep_getLsbD (cfg : CrcConfig) (reg : Word) (bit : Bool) (j : Nat) (horder : cfg.order ≤ 32) :
    (shiftStep cfg reg bit).getLsbD j =
      (decide (j < cfg.order) && ((decide (0 < j) && reg.getLsbD (j - 1)) ^^
        ((reg.getLsbD (cfg.order - 1) ^^ bit) && cfg.poly.getLsbD j))) := by
  have hshifted : ((reg <<< 1) &&& maskOf cfg.order).getLsbD j =
      (decide (j < cfg.order) && (decide (0 < j) && reg.getLsbD (j - 1))) := by
    rw [BitVec.getLsbD_and, maskOf_getLsbD horder, BitVec.getLsbD_shiftLeft]
    grind
  unfold shiftStep
  cases hfeedback : reg.getLsbD (cfg.order - 1) ^^ bit with
  | false => simp [hshifted]
  | true =>
    simp only [if_true, BitVec.getLsbD_xor, hshifted, BitVec.getLsbD_and, maskOf_getLsbD horder]
    cases decide (j < cfg.order) <;> simp

theorem shiftStep_lt (cfg : CrcConfig) (reg : Word) (bit : Bool) (horder : cfg.order ≤ 32) :
    (shiftStep cfg reg bit).toNat < 2 ^ cfg.order :=
  lt_of_masked horder (shiftStep_masked cfg reg bit)

/-- Settles O9: below the order the bit of a shift step is the rule's. -/
theorem shiftStepBitByBit : Obligations.ShiftStepBitByBit := by
  unfold Obligations.ShiftStepBitByBit
  intro cfg reg bit _ horder _
  refine ⟨fun j hj => ?_, shiftStep_lt cfg reg bit horder⟩
  rw [shiftStep_getLsbD cfg reg bit j horder, decide_eq_true hj, Bool.true_and]

/-! ### The seed (R60) -/

theorem shiftZeros_eq_iterate (cfg : CrcConfig) (k : Nat) (reg : Word) :
    shiftZeros cfg k reg = (fun r => shiftStep cfg r false)^[k] reg := by
  induction k generalizing reg with
  | zero => rfl
  | succ k ih => exact ih (shiftStep cfg reg false)

theorem initDirect_of_direct {cfg : CrcConfig} (h : cfg.direct = true) :
    initDirect cfg = cfg.init &&& maskOf cfg.order := if_pos h

theorem initDirect_of_nondirect {cfg : CrcConfig} (h : cfg.direct = false) :
    initDirect cfg = shiftZeros cfg cfg.order (cfg.init &&& maskOf cfg.order) :=
  if_neg (by simp [h])

/-- A zero register stays zero under zero bits: the feedback bit is never set. -/
theorem shiftStep_zero (cfg : CrcConfig) : shiftStep cfg 0#32 false = 0#32 := by
  simp [shiftStep]

/-- Settles O10: the two forms are the two cases of the definition, and zero steps keep a zero register. -/
theorem seedOfDirectAndNonDirectForms : Obligations.SeedOfDirectAndNonDirectForms := by
  unfold Obligations.SeedOfDirectAndNonDirectForms
  intro cfg _ _
  refine ⟨initDirect_of_direct, fun h => ?_, fun hinit => ?_⟩
  · rw [initDirect_of_nondirect h, shiftZeros_eq_iterate]
  · cases h : cfg.direct with
    | true => rw [initDirect_of_direct h, hinit, BitVec.zero_and]
    | false =>
      rw [initDirect_of_nondirect h, shiftZeros_eq_iterate, hinit, BitVec.zero_and]
      exact Function.iterate_fixed (shiftStep_zero cfg) _

/-! ### Feeding a byte (R61) -/

theorem feedByte_refIn {cfg : CrcConfig} (h : cfg.refIn = true) (reg : Word) (b : Byte) :
    feedByte cfg reg b =
      [7, 6, 5, 4, 3, 2, 1, 0].foldl (fun r j => shiftStep cfg r ((reflect (b.setWidth 32) 8).getLsbD j)) reg := by
  rw [feedByte, if_pos h]
  rfl

theorem feedByte_not_refIn {cfg : CrcConfig} (h : ¬ cfg.refIn = true) (reg : Word) (b : Byte) :
    feedByte cfg reg b =
      [7, 6, 5, 4, 3, 2, 1, 0].foldl (fun r j => shiftStep cfg r ((b.setWidth 32).getLsbD j)) reg := by
  rw [feedByte, if_neg h]
  rfl

/-- Settles O11: high bit first over the reflected byte is low bit first over the byte. -/
theorem feedByteIsEightShiftSteps : Obligations.FeedByteIsEightShiftSteps := by
  unfold Obligations.FeedByteIsEightShiftSteps
  intro cfg reg b
  have hbelow : ∀ j ∈ [7, 6, 5, 4, 3, 2, 1, 0], j < 8 := by decide
  split
  · rename_i hrefIn
    have hreversed : [0, 1, 2, 3, 4, 5, 6, 7] = [7, 6, 5, 4, 3, 2, 1, 0].map (7 - ·) := rfl
    rw [feedByte_refIn hrefIn, hreversed, List.foldl_map]
    refine List.foldl_ext _ _ _ fun r j hj => ?_
    rw [reflect_byte_getLsbD b (hbelow j hj)]
  · rename_i hrefIn
    rw [feedByte_not_refIn hrefIn]
    refine List.foldl_ext _ _ _ fun r j hj => ?_
    rw [BitVec.getLsbD_setWidth, decide_eq_true ((hbelow j hj).trans (by decide)), Bool.true_and]

/-! ### Only the low bits of the configuration are read (R65) -/

/-- `cfg` with the three configuration words cut to its order. -/
def CrcConfig.cut (cfg : CrcConfig) : CrcConfig :=
  { cfg with
    poly := cfg.poly &&& maskOf cfg.order
    init := cfg.init &&& maskOf cfg.order
    xorOut := cfg.xorOut &&& maskOf cfg.order }

theorem shiftStep_cut (cfg : CrcConfig) (reg : Word) (bit : Bool) :
    shiftStep cfg.cut reg bit = shiftStep cfg reg bit := by
  simp only [shiftStep, CrcConfig.cut, and_maskOf_idem]

theorem initDirect_cut (cfg : CrcConfig) : initDirect cfg.cut = initDirect cfg := by
  have hinit : cfg.cut.init &&& maskOf cfg.cut.order = cfg.init &&& maskOf cfg.order := and_maskOf_idem _ _
  cases h : cfg.direct with
  | true => rw [initDirect_of_direct h, ← hinit]; exact initDirect_of_direct h
  | false =>
    rw [initDirect_of_nondirect h, initDirect_of_nondirect (cfg := cfg.cut) h, hinit]
    simp only [shiftZeros_eq_iterate, shiftStep_cut]
    rfl

theorem feedByte_cut (cfg : CrcConfig) (reg : Word) (b : Byte) : feedByte cfg.cut reg b = feedByte cfg reg b := by
  rw [feedByteIsEightShiftSteps, feedByteIsEightShiftSteps]
  simp only [shiftStep_cut]
  rfl

/-- Cutting what is XORed in does not matter where the sum is cut. -/
theorem xor_and_maskOf (x y : Word) (n : Nat) :
    (x ^^^ (y &&& maskOf n)) &&& maskOf n = (x ^^^ y) &&& maskOf n := by
  ext i _
  simp only [BitVec.getElem_and, BitVec.getElem_xor]
  cases (maskOf n)[i] <;> simp

theorem output_cut (cfg : CrcConfig) (reg : Word) : output cfg.cut reg = output cfg reg :=
  xor_and_maskOf _ cfg.xorOut cfg.order

/-- Settles O13: `low` is the cut configuration, which the shift step, the seed and the output do not tell from `cfg`. -/
theorem highConfigurationBitsDoNotMatter : Obligations.HighConfigurationBitsDoNotMatter := by
  unfold Obligations.HighConfigurationBitsDoNotMatter
  rintro cfg reg b bytes low rfl
  have hfeed : feedByte cfg.cut = feedByte cfg := funext₂ (feedByte_cut cfg)
  refine ⟨initDirect_cut cfg, feedByte_cut cfg reg b, output_cut cfg reg, ?_⟩
  calc checksum cfg.cut bytes
      = output cfg.cut (bytes.foldl (feedByte cfg.cut) (initDirect cfg.cut)) := rfl
    _ = checksum cfg bytes := by rw [output_cut, hfeed, initDirect_cut]; rfl

end Sys2Proof.Machine
end

section
/-! Masking once equals masking every step (R65): the engine's register is, after every shift step, the low `order` bits of
the unbounded register of MWL's algorithm. -/

namespace Sys2Proof.Machine

/-- The word `r` is the low `n` bits of the unbounded register `R`. -/
def IsLowBits (n : Nat) (r : Word) (R : Nat) : Prop := r.toNat = R % 2 ^ n

/-- The same, bit by bit. -/
theorem isLowBits_iff (n : Nat) (r : Word) (R : Nat) :
    IsLowBits n r R ↔ ∀ i, r.getLsbD i = (decide (i < n) && R.testBit i) := by
  simp only [IsLowBits, ← BitVec.testBit_toNat, ← Nat.testBit_mod_two_pow]
  exact ⟨fun h i => by rw [h], Nat.eq_of_testBit_eq⟩

theorem IsLowBits.getLsbD_of_lt {n i : Nat} {r : Word} {R : Nat} (h : IsLowBits n r R) (hi : i < n) :
    r.getLsbD i = R.testBit i := by
  rw [(isLowBits_iff n r R).mp h i, decide_eq_true hi, Bool.true_and]

theorem isLowBits_and_maskOf {n : Nat} (h : n ≤ 32) (x : Word) : IsLowBits n (x &&& maskOf n) x.toNat :=
  and_maskOf_toNat h x

/-! ### Reflection -/

/-- The first `k` rounds of MWL's `reflect` set bits below `k` alone, each to the mirrored bit. -/
theorem mwlReflect_rounds_testBit (v n k i : Nat) :
    ((List.range k).foldl (fun r i => if v.testBit (n - 1 - i) then r + 2 ^ i else r) 0).testBit i =
      (decide (i < k) && v.testBit (n - 1 - i)) := by
  induction k generalizing i with
  | zero => simp
  | succ k ih =>
    rw [List.range_succ, List.foldl_append, List.foldl_cons, List.foldl_nil]
    generalize (List.range k).foldl (fun r i => if v.testBit (n - 1 - i) then r + 2 ^ i else r) 0 = r at ih ⊢
    have hr : r < 2 ^ k := Nat.lt_pow_two_of_testBit r fun j hj => by simp [ih, Nat.not_lt.mpr hj]
    have hround : (if v.testBit (n - 1 - k) then r + 2 ^ k else r).testBit i =
        (r.testBit i || (decide (k = i) && v.testBit (n - 1 - k))) := by
      split
      · rename_i hbit
        have hadd : r + 2 ^ k = 2 ^ k ||| r := by
          simpa [Nat.add_comm] using Nat.two_pow_add_eq_or_of_lt hr 1
        rw [hadd, Nat.testBit_or, Nat.testBit_two_pow, hbit, Bool.and_true, Bool.or_comm]
      · rename_i hbit
        simp [hbit]
    rw [hround, ih]
    by_cases hik : k = i
    · simp [hik]
    · simp [hik, show i ≤ k ↔ i < k by omega]

theorem mwlReflect_testBit (v n i : Nat) :
    (mwlReflect v n).testBit i = (decide (i < n) && v.testBit (n - 1 - i)) :=
  mwlReflect_rounds_testBit v n n i

/-- Reflection reads only the low `n` bits, so it may as well read them from the unbounded register. -/
theorem reflect_toNat {n : Nat} (hn : n ≤ 32) {r : Word} {R : Nat} (h : IsLowBits n r R) :
    (reflect r n).toNat = mwlReflect R n := by
  apply Nat.eq_of_testBit_eq
  intro i
  rw [BitVec.testBit_toNat, reflect_getLsbD r n i hn, mwlReflect_testBit]
  by_cases hi : i < n
  · rw [h.getLsbD_of_lt (by omega)]
  · simp [hi]

/-! ### The shift step, the seed and a byte -/

/-- Bit `j` of MWL's shift step; nothing above bit `order - 1` reaches a bit below `order`. -/
theorem mwlShift_testBit (cfg : CrcConfig) (R : Nat) (bit : Bool) {j : Nat} (hj : j < cfg.order) :
    (mwlShift cfg R bit).testBit j =
      ((decide (0 < j) && R.testBit (j - 1)) ^^
        ((R.testBit (cfg.order - 1) ^^ bit) && cfg.poly.getLsbD j)) := by
  have hfed : ∀ k, (R ^^^ (if bit then 2 ^ (cfg.order - 1) else 0)).testBit k =
      (R.testBit k ^^ (bit && decide (cfg.order - 1 = k))) := by
    intro k
    cases bit <;> simp [Nat.testBit_two_pow]
  have hdouble : ((R ^^^ (if bit then 2 ^ (cfg.order - 1) else 0)) * 2).testBit j =
      (decide (0 < j) && R.testBit (j - 1)) := by
    have hpow := Nat.testBit_mul_two_pow (R ^^^ (if bit then 2 ^ (cfg.order - 1) else 0)) j 1
    rw [pow_one, hfed] at hpow
    rw [hpow]
    rcases Nat.eq_zero_or_pos j with rfl | hpos
    · simp
    · simp [show cfg.order - 1 ≠ j - 1 by omega, show 1 ≤ j from hpos, hpos]
  unfold mwlShift
  simp only [hfed, decide_true, Bool.and_true]
  cases R.testBit (cfg.order - 1) ^^ bit <;> simp [hdouble, BitVec.testBit_toNat]

/-- A shift step of either machine keeps the one register the low bits of the other. -/
theorem shiftStep_isLowBits {cfg : CrcConfig} (h1 : 1 ≤ cfg.order) (h32 : cfg.order ≤ 32) {r : Word} {R : Nat}
    (h : IsLowBits cfg.order r R) (bit : Bool) :
    IsLowBits cfg.order (shiftStep cfg r bit) (mwlShift cfg R bit) := by
  rw [isLowBits_iff]
  intro j
  rw [shiftStep_getLsbD cfg r bit j h32]
  by_cases hj : j < cfg.order
  · rw [mwlShift_testBit cfg R bit hj, h.getLsbD_of_lt (show cfg.order - 1 < cfg.order by omega),
      h.getLsbD_of_lt (show j - 1 < cfg.order by omega)]
  · simp [hj]

theorem initDirect_isLowBits {cfg : CrcConfig} (h1 : 1 ≤ cfg.order) (h32 : cfg.order ≤ 32) :
    IsLowBits cfg.order (initDirect cfg) (mwlSeed cfg) := by
  have hinit := isLowBits_and_maskOf h32 cfg.init
  cases h : cfg.direct with
  | true =>
    rw [initDirect_of_direct h, mwlSeed, if_pos h]
    exact hinit
  | false =>
    have hsteps : shiftZeros cfg cfg.order (cfg.init &&& maskOf cfg.order) =
        (List.range cfg.order).foldl (fun r _ => shiftStep cfg r false) (cfg.init &&& maskOf cfg.order) := by
      rw [shiftZeros_eq_iterate, List.foldl_const, List.length_range]
    rw [initDirect_of_nondirect h, hsteps, mwlSeed, if_neg (by simp [h])]
    exact List.foldl_rel hinit fun _ _ _ _ hr => shiftStep_isLowBits h1 h32 hr false

/-- The bits of a byte, reflected or not, are the same in both machines. -/
theorem feedByte_isLowBits {cfg : CrcConfig} (h1 : 1 ≤ cfg.order) (h32 : cfg.order ≤ 32) {r : Word} {R : Nat}
    (h : IsLowBits cfg.order r R) (b : Byte) : IsLowBits cfg.order (feedByte cfg r b) (mwlFeed cfg R b) := by
  have hbyte : (b.setWidth 32).toNat = b.toNat := BitVec.toNat_setWidth_of_le (by decide)
  have hlow : IsLowBits 8 (b.setWidth 32) b.toNat := hbyte.trans (Nat.mod_eq_of_lt b.isLt).symm
  by_cases hrefIn : cfg.refIn = true
  · rw [feedByte_refIn hrefIn, mwlFeed, if_pos hrefIn]
    refine List.foldl_rel h fun j _ _ _ hr => ?_
    rw [← reflect_toNat (by decide) hlow, BitVec.testBit_toNat]
    exact shiftStep_isLowBits h1 h32 hr _
  · rw [feedByte_not_refIn hrefIn, mwlFeed, if_neg hrefIn]
    refine List.foldl_rel h fun j _ _ _ hr => ?_
    rw [← hbyte, BitVec.testBit_toNat]
    exact shiftStep_isLowBits h1 h32 hr _

/-! ### The output and the checksum -/

/-- The output of both machines is cut to the order, where their registers agree. -/
theorem output_toNat {cfg : CrcConfig} (h32 : cfg.order ≤ 32) {r : Word} {R : Nat} (h : IsLowBits cfg.order r R) :
    (output cfg r).toNat = mwlOutput cfg R := by
  have hlt : r.toNat < 2 ^ cfg.order := h ▸ Nat.mod_lt R (Nat.two_pow_pos _)
  rw [output, and_maskOf_of_lt h32 hlt, and_maskOf_toNat h32, BitVec.toNat_xor, mwlOutput]
  split
  · rw [reflect_toNat h32 h]
  · rw [h, Nat.xor_mod_two_pow, Nat.mod_mod, ← Nat.xor_mod_two_pow]

/-- Settles O12: the seeds agree, every byte keeps the agreement, and the outputs of agreeing registers are equal. -/
theorem maskingEveryStepEqualsMaskingOnce : Obligations.MaskingEveryStepEqualsMaskingOnce := by
  unfold Obligations.MaskingEveryStepEqualsMaskingOnce
  intro cfg bytes h1 h32
  have hregister : IsLowBits cfg.order (bytes.foldl (feedByte cfg) (initDirect cfg))
      (bytes.foldl (mwlFeed cfg) (mwlSeed cfg)) :=
    List.foldl_rel (initDirect_isLowBits h1 h32) fun b _ _ _ hr => feedByte_isLowBits h1 h32 hr b
  exact output_toNat h32 hregister

end Sys2Proof.Machine
end

section
/-! The CRC commands and FINALIZE (R66 to R69, R74): what each comes to, the stream the CRC commands make, and the spans
that are written, unwritten or too long. -/

namespace Sys2Proof.Machine

/-! ### CRC_START, CRC_FEED and CRC_FINAL -/

/-- Settles O14: the arm of CRC_START is its rule, from every state. -/
theorem crcStartSeedsTheRunningRegister : Obligations.CrcStartSeedsTheRunningRegister := by
  unfold Obligations.CrcStartSeedsTheRunningRegister
  exact ⟨by decide, fun s => rfl⟩

/-- Settles O15: the arm of CRC_FEED is its rule, from every state. -/
theorem crcFeedFeedsOneByte : Obligations.CrcFeedFeedsOneByte := by
  unfold Obligations.CrcFeedFeedsOneByte
  exact ⟨by decide, fun s => rfl⟩

/-- Settles O16: the arm of CRC_FINAL is its rule, from every state. -/
theorem crcFinalProducesTheChecksum : Obligations.CrcFinalProducesTheChecksum := by
  unfold Obligations.CrcFinalProducesTheChecksum
  exact ⟨by decide, fun s => rfl⟩

/-- The register of a stream already has only `order` bits, so the cut of CRC_FEED drops none. -/
theorem stream_masked (cfg : CrcConfig) (bytes : List Byte) :
    bytes.foldl (feedByte cfg) (initDirect cfg) &&& maskOf cfg.order =
      bytes.foldl (feedByte cfg) (initDirect cfg) :=
  foldl_feedByte_masked cfg bytes _ (initDirect_masked cfg)

/-- Settles O17: the running register is R63's fold over the bytes fed so far. -/
theorem streamedChecksumEqualsSpanChecksum : Obligations.StreamedChecksumEqualsSpanChecksum := by
  unfold Obligations.StreamedChecksumEqualsSpanChecksum
  obtain ⟨-, hstart⟩ := crcStartSeedsTheRunningRegister
  obtain ⟨-, hfeed⟩ := crcFeedFeedsOneByte
  obtain ⟨-, hfinal⟩ := crcFinalProducesTheChecksum
  refine ⟨fun s => ⟨_, hstart s, rfl, rfl⟩, fun s bytes hreg => ⟨⟨_, hfeed s, rfl, ?_⟩, _, hfinal s, rfl, ?_⟩⟩
  · have hcut : s.crcReg &&& maskOf s.crcOrder.toNat = s.crcReg := hreg ▸ stream_masked (cfgOf s) bytes
    rw [List.foldl_concat, ← hreg]
    exact congrArg (feedByte (cfgOf s) · _) hcut
  · exact congrArg (output (cfgOf s)) hreg

/-! ### CRC_SPAN -/

theorem exec_crcSpan_of_fits {s : State} (h : (spanStart s).toNat + (spanLen s).toNat ≤ 32) :
    exec .crcSpan s = .next (complete { noteDraw (spanStart s).toNat (spanLen s).toNat s with
      crcResult := spanChecksum s (spanStart s).toNat (spanLen s).toNat }) :=
  if_neg (Nat.not_lt.mpr h)

theorem exec_crcSpan_of_too_long {s : State} (h : 32 < (spanStart s).toNat + (spanLen s).toNat) :
    exec .crcSpan s = .next (raiseError .badLength s) :=
  if_pos h

/-- Settles O18: bytes that are all written load as a list, whose checksum the span checksum is. -/
theorem crcSpanChecksumsTheSpan : Obligations.CrcSpanChecksumsTheSpan := by
  unfold Obligations.CrcSpanChecksumsTheSpan
  refine ⟨by decide, ?_⟩
  rintro s start len bytes rfl rfl
  refine ⟨fun hfits hlen hbytes => ?_, exec_crcSpan_of_too_long⟩
  have hload : loadBytes s.mem (frameBase + (spanStart s).toNat) (spanLen s).toNat = some bytes :=
    (loadBytes_eq_some_iff _ _ _ _).mpr ⟨hlen, hbytes⟩
  rw [exec_crcSpan_of_fits hfits, spanChecksum_of_loaded s _ _ bytes hload,
    noteDraw_of_written _ _ s (spanWritten_of_loaded s _ _ bytes hload)]
  rfl

/-! ### FINALIZE -/

theorem exec_finalize_of_fits {s : State} (h2 : 2 ≤ s.frameLen.toNat) (h32 : s.frameLen.toNat ≤ 32) :
    exec .finalize s = .next (complete (finalizeFrame s.frameLen.toNat s)) :=
  if_neg (not_or.mpr ⟨Nat.not_lt.mpr h2, Nat.not_lt.mpr h32⟩)

theorem exec_finalize_of_misfit {s : State} (h : s.frameLen.toNat < 2 ∨ 32 < s.frameLen.toNat) :
    exec .finalize s = .next (raiseError .badLength s) :=
  if_pos h

/-- The low byte of the checksum comes first in the trailer (R72). -/
theorem finalizeFrame_trailerLow (n : Nat) (s : State) :
    loadByte (finalizeFrame n s).mem (frameBase + (n - 2)) =
      some ((spanChecksum s 0 (n - 2)).extractLsb' 0 8) := by
  rw [finalizeFrame_mem]
  exact loadByte_storeBytes_inside _ _ _ 0 _ rfl

theorem finalizeFrame_trailerHigh {n : Nat} (h2 : 2 ≤ n) (s : State) :
    loadByte (finalizeFrame n s).mem (frameBase + (n - 1)) =
      some ((spanChecksum s 0 (n - 2)).extractLsb' 8 8) := by
  rw [finalizeFrame_mem, show frameBase + (n - 1) = frameBase + (n - 2) + 1 by omega]
  exact loadByte_storeBytes_inside _ _ _ 1 _ rfl

/-! ### Spans with an unwritten byte (log entry 3) -/

theorem noteDraw_of_unwritten {start len : Nat} {s : State} (h : spanWritten s start len = false) :
    noteDraw start len s = { s with drawn := s.drawn + 1 } := by
  simp [noteDraw, h]

theorem spanChecksum_lt {s : State} (h : s.crcOrder.toNat ≤ 32) (start len : Nat) :
    (spanChecksum s start len).toNat < 2 ^ s.crcOrder.toNat :=
  lt_of_masked h (spanChecksum_masked s start len)

theorem finalizeFrame_of_unwritten {n : Nat} {s : State} (h : spanWritten s 0 (n - 2) = false) :
    finalizeFrame n s = { s with
      mem := (finalizeFrame n s).mem
      crcResult := spanChecksum s 0 (n - 2)
      drawn := s.drawn + 1 } := by
  conv_lhs => rw [finalizeFrame, noteDraw_of_unwritten h]
  rfl

/-- Settles O19: the free value is a span checksum like any other, so it is cut to the order and goes where one goes. -/
theorem unwrittenSpanStillCompletes : Obligations.UnwrittenSpanStillCompletes := by
  unfold Obligations.UnwrittenSpanStillCompletes
  constructor
  · intro s _ horder hfits hunwritten
    refine ⟨spanChecksum s (spanStart s).toNat (spanLen s).toNat, spanChecksum_lt horder _ _, ?_⟩
    rw [exec_crcSpan_of_fits hfits, noteDraw_of_unwritten hunwritten]
    rfl
  · intro s _ horder h2 h32 hunwritten
    refine ⟨spanChecksum s 0 (s.frameLen.toNat - 2), complete (finalizeFrame s.frameLen.toNat s),
      spanChecksum_lt horder _ _, exec_finalize_of_fits h2 h32, ?_, finalizeFrame_trailerLow _ s,
      finalizeFrame_trailerHigh h2 s, fun a hlow hhigh => ?_⟩
    · exact congrArg complete (finalizeFrame_of_unwritten hunwritten)
    · exact finalizeFrame_elsewhere _ s a (by omega)

end Sys2Proof.Machine
end

section
/-! What the checksum of a span does not depend on (R64): a command over a span makes the same of two states that differ
only in registers it has no business reading. -/

namespace Sys2Proof.Machine

/-- `s` with the registers of `x` that no checksum of a span may depend on. -/
def State.withHidden (s x : State) : State :=
  { s with
    crcReg := x.crcReg
    crcResult := x.crcResult
    err := x.err
    cmd := x.cmd
    respCount := x.respCount
    battStatus := x.battStatus
    battMv := x.battMv }

/-- The two states agree in STATUS.ERR, in FRAME, and in CRC_RESULT where the command has completed. -/
def SameProducts (t t' : State) : Prop :=
  t'.err = t.err ∧ t'.mem = t.mem ∧ (t.err = 0#4 → t'.crcResult = t.crcResult)

theorem spanChecksum_withHidden (s x : State) (start len : Nat) :
    spanChecksum (s.withHidden x) start len = spanChecksum s start len := rfl

theorem sameProducts_raiseError {e : ErrCode} (he : errBits e ≠ 0#4) (s x : State) :
    SameProducts (raiseError e s) (raiseError e (s.withHidden x)) :=
  ⟨rfl, rfl, fun h => absurd h he⟩

theorem sameProducts_span (s x : State) (start len : Nat) :
    SameProducts (complete { noteDraw start len s with crcResult := spanChecksum s start len })
      (complete { noteDraw start len (s.withHidden x) with
        crcResult := spanChecksum (s.withHidden x) start len }) := by
  refine ⟨rfl, ?_, fun _ => spanChecksum_withHidden s x start len⟩
  simp only [complete_mem, noteDraw_mem]
  rfl

theorem sameProducts_finalizeFrame (n : Nat) (s x : State) :
    SameProducts (complete (finalizeFrame n s)) (complete (finalizeFrame n (s.withHidden x))) := by
  refine ⟨rfl, ?_, fun _ => spanChecksum_withHidden s x 0 (n - 2)⟩
  rw [complete_mem, complete_mem, finalizeFrame_mem, finalizeFrame_mem, spanChecksum_withHidden]
  rfl

theorem sameProducts_buildFrame (n opc opt : Byte) (payload : List Byte) (s x : State) :
    SameProducts (complete (buildFrame n opc opt payload s))
      (complete (buildFrame n opc opt payload (s.withHidden x))) :=
  sameProducts_finalizeFrame n.toNat
    { s with mem := storeBytes s.mem frameBase (startMarker :: n :: opc :: opt :: payload), frameLen := n } x

/-- A command that computes a checksum of a span reads none of the hidden registers: not for its operands, nor for its
check, nor for what it writes. -/
theorem exec_withHidden {i : Instr} (hi : i = .crcSpan ∨ i = .finalize ∨ isBuilder i = true) (s x : State) :
    ∃ t t', exec i s = .next t ∧ exec i (s.withHidden x) = .next t' ∧ SameProducts t t' := by
  cases i
  case crcSpan =>
    by_cases h : (spanStart s).toNat + (spanLen s).toNat ≤ 32
    · exact ⟨_, _, exec_crcSpan_of_fits h, exec_crcSpan_of_fits (s := s.withHidden x) h, sameProducts_span s x _ _⟩
    · have h := Nat.not_le.mp h
      exact ⟨_, _, exec_crcSpan_of_too_long h, exec_crcSpan_of_too_long (s := s.withHidden x) h,
        sameProducts_raiseError (by decide) s x⟩
  case finalize =>
    by_cases h : s.frameLen.toNat < 2 ∨ 32 < s.frameLen.toNat
    · exact ⟨_, _, exec_finalize_of_misfit h, exec_finalize_of_misfit (s := s.withHidden x) h,
        sameProducts_raiseError (by decide) s x⟩
    · obtain ⟨h2, h32⟩ : 2 ≤ s.frameLen.toNat ∧ s.frameLen.toNat ≤ 32 := by omega
      exact ⟨_, _, exec_finalize_of_fits h2 h32, exec_finalize_of_fits (s := s.withHidden x) h2 h32,
        sameProducts_finalizeFrame _ s x⟩
  case encSetWidgetList =>
    by_cases h : (widgetPairCount s).toNat < 1 ∨ (widgetPairCount s).toNat > 7
    · exact ⟨_, _, if_pos h, if_pos h, sameProducts_raiseError (e := .badArg) (by decide) s x⟩
    · exact ⟨_, _, if_neg h, if_neg h, sameProducts_buildFrame _ _ _ _ s x⟩
  case crcStart | crcFeed | crcFinal | parseBattery => simp [isBuilder] at hi
  all_goals exact ⟨_, _, rfl, rfl, sameProducts_buildFrame _ _ _ _ s x⟩

/-- Settles O42: the second state is the first with its hidden registers replaced. -/
theorem spanChecksumsDependOnNothingHidden : Obligations.SpanChecksumsDependOnNothingHidden := by
  unfold Obligations.SpanChecksumsDependOnNothingHidden
  intro i s s' t t' hi hs' ht ht'
  have hhidden : s' = s.withHidden s' := hs'
  obtain ⟨u, u', hu, hu', hsame⟩ := exec_withHidden hi s s'
  rw [← hhidden, ht'] at hu'
  rw [ht] at hu
  cases hu
  cases hu'
  exact hsame

end Sys2Proof.Machine
end

section
/-! The finished frame (R74 to R76): FINALIZE and the ENC_* commands leave the checksum of the span in the trailer and in
CRC_RESULT, and such a frame finalizes to itself and checks out under CRC_SPAN. -/

namespace Sys2Proof.Machine

/-! ### Writes that change nothing, and loading a written span -/

theorem storeBytes_of_loaded {m : Memory} {a : Nat} {bs : List Byte} (hm : m.wf = true)
    (h : ∀ k b, bs[k]? = some b → loadByte m (a + k) = some b) : storeBytes m a bs = m := by
  induction bs generalizing a with
  | nil => rfl
  | cons b rest ih =>
    rw [storeBytes, storeByte_of_loadByte m a b hm (h 0 b rfl)]
    exact ih fun k c hk => by rw [Nat.add_right_comm]; exact h (k + 1) c hk

theorem exists_loaded_of_spanWritten {s : State} {start len : Nat} (h : spanWritten s start len = true) :
    ∃ bytes, loadBytes s.mem (frameBase + start) len = some bytes :=
  Option.isSome_iff_exists.mp h

theorem complete_of_err {s : State} (h : s.err = 0#4) : complete s = s := by
  rw [complete, errBits, ← h]

/-! ### FINALIZE over a written span -/

/-- The counterpart of `finalizeFrame_of_unwritten`: over a written span no free value is drawn. -/
theorem finalizeFrame_of_written {n : Nat} {s : State} (h : spanWritten s 0 (n - 2) = true) :
    finalizeFrame n s = { s with
      mem := (finalizeFrame n s).mem
      crcResult := spanChecksum s 0 (n - 2) } := by
  conv_lhs => rw [finalizeFrame, noteDraw_of_written _ _ s h]
  rfl

/-- Settles O20: written bytes load as a list, whose checksum is the one the Finalizer stores. -/
theorem finalizeFillsTheTrailer : Obligations.FinalizeFillsTheTrailer := by
  unfold Obligations.FinalizeFillsTheTrailer
  refine ⟨by decide, ?_⟩
  rintro s n bytes rfl
  refine ⟨fun h2 h32 hlen hbytes => ?_, exec_finalize_of_misfit⟩
  have hload : loadBytes s.mem frameBase (s.frameLen.toNat - 2) = some bytes :=
    (loadBytes_eq_some_iff _ _ _ _).mpr ⟨hlen, hbytes⟩
  rw [← spanChecksum_of_loaded s 0 _ bytes hload]
  refine ⟨_, exec_finalize_of_fits h2 h32, ?_, finalizeFrame_trailerLow _ s, finalizeFrame_trailerHigh h2 s,
    fun a hlow hhigh => finalizeFrame_elsewhere _ s a (by omega)⟩
  exact congrArg complete (finalizeFrame_of_written (spanWritten_of_loaded s 0 _ bytes hload))

/-! ### Finished frames -/

/-- `t` holds a frame whose checksum span is `bytes`, just finished: the checksum of the span stands in the trailer, low byte
first (R72), and in CRC_RESULT, and STATUS.ERR is 0. -/
structure FinishedFrame (t : State) (bytes : List Byte) : Prop where
  fits : 2 ≤ t.frameLen.toNat ∧ t.frameLen.toNat ≤ 32
  span : loadBytes t.mem frameBase (t.frameLen.toNat - 2) = some bytes
  trailer : ∀ k b,
    [(checksum (cfgOf t) bytes).extractLsb' 0 8, (checksum (cfgOf t) bytes).extractLsb' 8 8][k]? = some b →
      loadByte t.mem (frameBase + (t.frameLen.toNat - 2) + k) = some b
  result : t.crcResult = checksum (cfgOf t) bytes
  err : t.err = 0#4

theorem finalizeFrame_finishes {s : State} {bytes : List Byte} (h2 : 2 ≤ s.frameLen.toNat)
    (h32 : s.frameLen.toNat ≤ 32) (hload : loadBytes s.mem frameBase (s.frameLen.toNat - 2) = some bytes) :
    FinishedFrame (complete (finalizeFrame s.frameLen.toNat s)) bytes := by
  rw [finalizeFrame_of_loaded _ s bytes hload]
  refine ⟨⟨h2, h32⟩, ?_, loadByte_storeBytes_inside _ _ _, rfl, rfl⟩
  exact (loadBytes_storeBytes_disjoint _ _ _ _ _ (.inl (Nat.le_refl _))).trans hload

/-- Build has written the whole span before it calls the Finalizer (R77). -/
theorem buildFrame_finishes {n opc opt : Byte} {payload : List Byte} (s : State)
    (hn : n.toNat = payload.length + 6) (h32 : n.toNat ≤ 32) :
    FinishedFrame (complete (buildFrame n opc opt payload s)) (startMarker :: n :: opc :: opt :: payload) := by
  have hlen : n.toNat - 2 = (startMarker :: n :: opc :: opt :: payload).length := by
    simp only [List.length_cons]; omega
  have h2 : 2 ≤ n.toNat := by omega
  refine finalizeFrame_finishes
    (s := { s with mem := storeBytes s.mem frameBase (startMarker :: n :: opc :: opt :: payload), frameLen := n })
    h2 h32 ?_
  rw [hlen]
  exact loadBytes_storeBytes_same _ _ _

theorem Completes.finishes {i : Instr} {s u : State} (h : Completes i s u)
    (hi : (i = .finalize ∧ spanWritten s 0 (s.frameLen.toNat - 2) = true) ∨ isBuilder i = true) :
    ∃ bytes, FinishedFrame (complete u) bytes := by
  cases h using Completes.shapes with
  | finalize n _ hn h2 h32 =>
    subst hn
    obtain ⟨-, hwritten⟩ | hbuild := hi
    · obtain ⟨bytes, hload⟩ := exists_loaded_of_spanWritten hwritten
      exact ⟨bytes, finalizeFrame_finishes h2 h32 hload⟩
    · cases hbuild
  | build _ n opc opt payload _ _ hn h20 => exact ⟨_, buildFrame_finishes s hn (by omega)⟩
  | _ => simp [isBuilder] at hi

/-- A refused command leaves a code other than 0, so one that leaves 0 has completed. -/
theorem finishes_of_exec {i : Instr} {s t : State}
    (hi : (i = .finalize ∧ spanWritten s 0 (s.frameLen.toNat - 2) = true) ∨ isBuilder i = true)
    (hexec : exec i s = .next t) (herr : t.err = 0#4) : ∃ bytes, FinishedFrame t bytes := by
  obtain ⟨e, he, rfl⟩ | ⟨u, hu, rfl⟩ := exec_next_cases hexec
  · exact absurd herr he.err_ne
  · exact hu.finishes hi

/-! ### FINALIZE over a finished frame -/

/-- Finalizing computes the checksum over the same span, so it stores what is already there. -/
theorem FinishedFrame.exec_finalize {t : State} {bytes : List Byte} (h : FinishedFrame t bytes)
    (hm : t.mem.wf = true) : exec .finalize t = .next t := by
  obtain ⟨h2, h32⟩ := h.fits
  rw [exec_finalize_of_fits h2 h32, finalizeFrame_of_loaded _ t bytes h.span, storeBytes_of_loaded hm h.trailer,
    ← h.result]
  exact congrArg _ (complete_of_err h.err)

/-- Settles O21: the invariant keeps the memory canonical, so storing the trailer again gives the same memory. -/
theorem finalizeTwiceIsFinalizeOnce : Obligations.FinalizeTwiceIsFinalizeOnce := by
  unfold Obligations.FinalizeTwiceIsFinalizeOnce
  intro s t hinv hwritten hexec herr
  obtain ⟨bytes, hfinished⟩ := finishes_of_exec (.inl ⟨rfl, hwritten⟩) hexec herr
  exact hfinished.exec_finalize (exec_inv hinv hexec).memCanonical

/-! ### Checking a finished frame -/

theorem toNat_mod_eq_of_low_bytes (c : Word) :
    c.toNat % 2 ^ 16 = (c.extractLsb' 0 8).toNat + 256 * (c.extractLsb' 8 8).toNat := by
  simp only [BitVec.extractLsb'_toNat, Nat.shiftRight_eq_div_pow]
  omega

/-- The trailer lies directly behind the span, its second byte at `N - 1`. -/
theorem FinishedFrame.loadByte_trailer {t : State} {bytes : List Byte} (h : FinishedFrame t bytes) :
    loadByte t.mem (frameBase + (t.frameLen.toNat - 2)) = some ((checksum (cfgOf t) bytes).extractLsb' 0 8) ∧
    loadByte t.mem (frameBase + (t.frameLen.toNat - 1)) = some ((checksum (cfgOf t) bytes).extractLsb' 8 8) := by
  obtain ⟨h2, -⟩ := h.fits
  refine ⟨h.trailer 0 _ rfl, ?_⟩
  rw [show frameBase + (t.frameLen.toNat - 1) = frameBase + (t.frameLen.toNat - 2) + 1 by omega]
  exact h.trailer 1 _ rfl

/-- ARG0 = len * 256 names the span of `len` bytes from FRAME[0] (R54). -/
theorem span_operands_of_len {len : Nat} (h : len < 256) :
    ((BitVec.ofNat 32 (len * 256)).extractLsb' 0 8).toNat = 0 ∧
    ((BitVec.ofNat 32 (len * 256)).extractLsb' 8 8).toNat = len := by
  simp only [BitVec.extractLsb'_toNat, BitVec.toNat_ofNat, Nat.shiftRight_eq_div_pow]
  omega

theorem FinishedFrame.exec_crcSpan {t : State} {bytes : List Byte} (h : FinishedFrame t bytes) :
    ∃ u, exec .crcSpan { t with arg0 := BitVec.ofNat 32 ((t.frameLen.toNat - 2) * 256) } = .next u ∧
      u.err = 0#4 ∧ u.crcResult = checksum (cfgOf t) bytes := by
  obtain ⟨-, h32⟩ := h.fits
  obtain ⟨hstart, hlen⟩ := span_operands_of_len (len := t.frameLen.toNat - 2) (by omega)
  obtain ⟨hlength, hbytes⟩ := (loadBytes_eq_some_iff _ _ _ _).mp h.span
  obtain ⟨-, hspan⟩ := crcSpanChecksumsTheSpan
  obtain ⟨hcompletes, -⟩ := hspan { t with arg0 := BitVec.ofNat 32 ((t.frameLen.toNat - 2) * 256) } 0 _ bytes
    hstart.symm hlen.symm
  exact ⟨_, hcompletes (by omega) hlength hbytes, rfl, rfl⟩

/-- Settles O22: whichever command finished the frame, the trailer and CRC_SPAN both speak of the checksum of its span. -/
theorem finishedFrameChecksOut : Obligations.FinishedFrameChecksOut := by
  unfold Obligations.FinishedFrameChecksOut
  intro i s t hi hexec herr
  obtain ⟨bytes, h⟩ := finishes_of_exec hi hexec herr
  obtain ⟨h2, h32⟩ := h.fits
  obtain ⟨hlow, hhigh⟩ := h.loadByte_trailer
  obtain ⟨u, hu, huerr, huresult⟩ := h.exec_crcSpan
  exact ⟨h2, h32, bytes, _, _, h.span, hlow, hhigh, toNat_mod_eq_of_low_bytes _,
    u, hu, huerr, huresult.trans h.result.symm, huresult⟩

end Sys2Proof.Machine
end

section
/-! The packet builders (R77 to R90): the operand bytes in the terms of ARG0 to ARG4, and for each ENC_* command the frame
that `Build` makes of them. -/

namespace Sys2Proof.Machine

/-! ### Operand bytes (R54, R80) -/

/-- A flag operand is bit 0 of its word as a byte of 0 or 1 (R80). -/
theorem bitByte_extractLsb'_zero (w : Word) :
    bitByte (w.extractLsb' 0 1) = if w.getLsbD 0 = true then 0x01#8 else 0x00#8 := by
  have hbit : w.extractLsb' 0 1 = BitVec.ofBool (w.getLsbD 0) := by
    ext i hi
    simp [show i = 0 by omega]
  rw [hbit]
  cases w.getLsbD 0 <;> rfl

/-- A byte of a 16-bit operand is the byte of its word that many bits above the operand's lowest (R54). -/
theorem byte_of_half (w : Word) (start : Nat) {i : Nat} (hi : i + 8 ≤ 16) :
    (w.extractLsb' start 16).extractLsb' i 8 = w.extractLsb' (start + i) 8 := by
  apply BitVec.eq_of_getLsbD_eq
  intro j hj
  simp [hj, show i + j < 16 by omega, Nat.add_assoc]

/-- Concatenating the fields around the two zero bits is R84's shift and or. -/
theorem updateOptions_eq_shifts : ∀ (style bufferSelect : BitVec 1) (page mode : BitVec 2),
    updateOptions style bufferSelect page mode =
      (style.setWidth 8 <<< 7) ||| (bufferSelect.setWidth 8 <<< 5) ||| (page.setWidth 8 <<< 2) |||
        mode.setWidth 8 := by decide

/-- Concatenating the fields below the four zero bits is R87's shift and or. -/
theorem widgetOptions_eq_shifts : ∀ msgTotal msgIndex : BitVec 2,
    widgetOptions msgTotal msgIndex = (msgTotal.setWidth 8 <<< 2) ||| msgIndex.setWidth 8 := by decide

/-- pairByte[k] is byte `k mod 4` of ARG(1 + k div 4) (R54). -/
def widgetPairByte (s : State) (k : Nat) : Byte :=
  ([s.arg1, s.arg2, s.arg3, s.arg4].getD (k / 4) 0#32).extractLsb' (8 * (k % 4)) 8

theorem widgetPairBytes_eq_map (s : State) : widgetPairBytes s = (List.range 16).map (widgetPairByte s) := rfl

/-- Four ARG registers hold the pair bytes of up to 8 pairs, more than a pair count can name (R87). -/
theorem widgetPairBytes_take (s : State) {m : Nat} (hm : m ≤ 16) :
    (widgetPairBytes s).take m = (List.range m).map (widgetPairByte s) := by
  rw [widgetPairBytes_eq_map, ← List.map_take, List.take_range, Nat.min_eq_left hm]

/-! ### Commands that end in Build (R77) -/

/-- A command that ends in Build and completes builds the frame whose span is Build's header and payload. -/
theorem buildsFrame_of_exec {i : Instr} {s : State} {n opc opt : Byte} {payload : List Byte}
    (h : exec i s = .next (complete (buildFrame n opc opt payload s))) (hn : n.toNat = payload.length + 6) :
    ∃ t, exec i s = .next t ∧ BuildsFrame s t (startMarker :: n :: opc :: opt :: payload) :=
  ⟨_, h, buildFrame_builds n opc opt payload s hn⟩

/-- Settles O23: the bytes of the year are the two low bytes of ARG0. -/
theorem setClockBuildsItsFrame : Obligations.SetClockBuildsItsFrame := by
  unfold Obligations.SetClockBuildsItsFrame
  refine ⟨by decide, fun s => ?_⟩
  have hhigh : (clockYear s).extractLsb' 8 8 = s.arg0.extractLsb' 8 8 := byte_of_half s.arg0 0 (by decide)
  have hlow : (clockYear s).extractLsb' 0 8 = s.arg0.extractLsb' 0 8 := byte_of_half s.arg0 0 (by decide)
  rw [← hhigh, ← hlow]
  exact buildsFrame_of_exec rfl rfl

/-- Settles O24: the bytes of the two times are the four bytes of ARG0. -/
theorem setVibrationBuildsItsFrame : Obligations.SetVibrationBuildsItsFrame := by
  unfold Obligations.SetVibrationBuildsItsFrame
  refine ⟨by decide, fun s => ?_⟩
  have honLow : (vibrationOn s).extractLsb' 0 8 = s.arg0.extractLsb' 0 8 := byte_of_half s.arg0 0 (by decide)
  have honHigh : (vibrationOn s).extractLsb' 8 8 = s.arg0.extractLsb' 8 8 := byte_of_half s.arg0 0 (by decide)
  have hoffLow : (vibrationOff s).extractLsb' 0 8 = s.arg0.extractLsb' 16 8 := byte_of_half s.arg0 16 (by decide)
  have hoffHigh : (vibrationOff s).extractLsb' 8 8 = s.arg0.extractLsb' 24 8 := byte_of_half s.arg0 16 (by decide)
  rw [← honLow, ← honHigh, ← hoffLow, ← hoffHigh]
  exact buildsFrame_of_exec rfl rfl

/-- Settles O25: the options byte is the flag operand as a byte. -/
theorem setFullscreenBuildsItsFrame : Obligations.SetFullscreenBuildsItsFrame := by
  unfold Obligations.SetFullscreenBuildsItsFrame
  refine ⟨by decide, fun s => ?_⟩
  rw [← bitByte_extractLsb'_zero s.arg0]
  exact buildsFrame_of_exec rfl rfl

/-- Settles O26: the options byte is R84's shift and or of the four fields. -/
theorem updateDisplayBuildsItsFrame : Obligations.UpdateDisplayBuildsItsFrame := by
  unfold Obligations.UpdateDisplayBuildsItsFrame
  refine ⟨by decide, fun s => ?_⟩
  rw [← updateOptions_eq_shifts]
  exact buildsFrame_of_exec rfl rfl

/-- Settles O28: the options byte is the flag operand as a byte. -/
theorem setBacklightBuildsItsFrame : Obligations.SetBacklightBuildsItsFrame := by
  unfold Obligations.SetBacklightBuildsItsFrame
  refine ⟨by decide, fun s => ?_⟩
  rw [← bitByte_extractLsb'_zero s.arg0]
  exact buildsFrame_of_exec rfl rfl

/-- Settles O30: the options byte is the flag operand as a byte, and the payload is the idle-mode byte. -/
theorem clearScreenBuildsItsFrame : Obligations.ClearScreenBuildsItsFrame := by
  unfold Obligations.ClearScreenBuildsItsFrame
  refine ⟨by decide, fun s => ?_⟩
  rw [← bitByte_extractLsb'_zero s.arg0]
  exact buildsFrame_of_exec rfl rfl

/-- Settles O31: Build with options 0 and no payload. -/
theorem getBatteryBuildsItsFrame : Obligations.GetBatteryBuildsItsFrame := by
  unfold Obligations.GetBatteryBuildsItsFrame
  exact ⟨by decide, fun s => buildsFrame_of_exec rfl rfl⟩

/-- Settles O32: Build with options 0 and no payload. -/
theorem resetDeviceBuildsItsFrame : Obligations.ResetDeviceBuildsItsFrame := by
  unfold Obligations.ResetDeviceBuildsItsFrame
  exact ⟨by decide, fun s => buildsFrame_of_exec rfl rfl⟩

/-! ### The defaults of UpdateDisplay (R85): Build takes its operands as arguments, so it neither reads nor writes ARG0 -/

theorem noteDraw_arg0_comm (start len : Nat) (s : State) (w : Word) :
    noteDraw start len { s with arg0 := w } = { noteDraw start len s with arg0 := w } := by
  cases h : spanWritten s start len with
  | true =>
    have h' : spanWritten { s with arg0 := w } start len = true := h
    rw [noteDraw_of_written _ _ _ h, noteDraw_of_written _ _ _ h']
  | false =>
    have h' : spanWritten { s with arg0 := w } start len = false := h
    rw [noteDraw_of_unwritten h, noteDraw_of_unwritten h']

theorem finalizeFrame_arg0_comm (n : Nat) (s : State) (w : Word) :
    finalizeFrame n { s with arg0 := w } = { finalizeFrame n s with arg0 := w } := by
  simp only [finalizeFrame, noteDraw_arg0_comm]
  rfl

theorem buildFrame_arg0_comm (n opc opt : Byte) (payload : List Byte) (s : State) (w : Word) :
    buildFrame n opc opt payload { s with arg0 := w } = { buildFrame n opc opt payload s with arg0 := w } :=
  finalizeFrame_arg0_comm n.toNat
    { s with mem := storeBytes s.mem frameBase (startMarker :: n :: opc :: opt :: payload), frameLen := n } w

/-- The fields of ARG0 = 0x00306000 are the defaults: options 0xA0, rows 0 to 96. -/
theorem exec_encUpdateDisplay_defaults (s : State) :
    exec .encUpdateDisplay { s with arg0 := 0x00306000#32 } =
      .next (complete (buildFrame 8#8 Config.opcUpdateDisplay 0xA0#8 [0x00#8, 0x60#8]
        { s with arg0 := 0x00306000#32 })) := by
  have hoptions : updateOptions (BitVec.extractLsb' 20 1 0x00306000#32) (BitVec.extractLsb' 21 1 0x00306000#32)
      (BitVec.extractLsb' 16 2 0x00306000#32) (BitVec.extractLsb' 18 2 0x00306000#32) = 0xA0#8 := by decide
  have hstart : BitVec.extractLsb' 0 8 0x00306000#32 = 0x00#8 := by decide
  have hend : BitVec.extractLsb' 8 8 0x00306000#32 = 0x60#8 := by decide
  simp only [exec, execEncUpdateDisplay, hoptions, hstart, hend]

/-- Settles O27: with ARG0 = 0x00306000 both commands are the same Build, which leaves ARG0 alone. -/
theorem updateDisplayDefaultBuildsItsFrame : Obligations.UpdateDisplayDefaultBuildsItsFrame := by
  unfold Obligations.UpdateDisplayDefaultBuildsItsFrame
  refine ⟨by decide, fun s => ?_⟩
  obtain ⟨t, ht, hbuilds⟩ := buildsFrame_of_exec (i := .encUpdateDisplayDefault) (s := s) rfl rfl
  refine ⟨t, _, ht, hbuilds, exec_encUpdateDisplay_defaults s, ?_⟩
  cases ht
  rw [buildFrame_arg0_comm]
  rfl

/-! ### ENC_SET_WIDGET_LIST (R87) -/

theorem exec_encSetWidgetList_of_pairs {s : State} (h : 1 ≤ (widgetPairCount s).toNat) :
    exec .encSetWidgetList s = .next (complete (buildFrame (BitVec.ofNat 8 (6 + 2 * (widgetPairCount s).toNat))
      Config.opcSetWidgetList (widgetOptions (widgetMsgTotal s) (widgetMsgIndex s))
      ((widgetPairBytes s).take (2 * (widgetPairCount s).toNat)) s)) := by
  have h8 : (widgetPairCount s).toNat < 8 := (widgetPairCount s).isLt
  exact if_neg (by omega)

theorem exec_encSetWidgetList_of_no_pairs {s : State} (h : (widgetPairCount s).toNat = 0) :
    exec .encSetWidgetList s = .next (raiseError .badArg s) :=
  if_pos (by omega)

/-- Settles O29: up to 7 pairs fit the length byte and the ARG registers, and no pairs are refused. -/
theorem setWidgetListBuildsItsFrame : Obligations.SetWidgetListBuildsItsFrame := by
  unfold Obligations.SetWidgetListBuildsItsFrame
  refine ⟨by decide, ?_⟩
  rintro s n rfl
  refine ⟨fun hpairs => ?_, exec_encSetWidgetList_of_no_pairs⟩
  have h8 : (widgetPairCount s).toNat < 8 := (widgetPairCount s).isLt
  have hexec := exec_encSetWidgetList_of_pairs hpairs
  rw [widgetPairBytes_take s (by omega), widgetOptions_eq_shifts] at hexec
  have hlength : (BitVec.ofNat 8 (6 + 2 * (widgetPairCount s).toNat)).toNat =
      ((List.range (2 * (widgetPairCount s).toNat)).map (widgetPairByte s)).length + 6 := by
    rw [BitVec.toNat_ofNat, List.length_map, List.length_range]
    omega
  exact buildsFrame_of_exec hexec hlength

end Sys2Proof.Machine
end

section
/-! PARSE_BATTERY (R92, R93): what it stores, when it is refused, and that no other step but a reset writes the battery
registers (R94). -/

namespace Sys2Proof.Machine

/-! ### The fields of BATT_STATUS (R35) -/

theorem battStatusOf_charger (charger charging percent : Byte) :
    (battStatusOf charger charging percent).extractLsb' 0 8 = charger :=
  BitVec.extractLsb'_append_eq_right

/-- CHARGING lies directly above CHARGER (R35). -/
theorem battStatusOf_charging (charger charging percent : Byte) :
    (battStatusOf charger charging percent).extractLsb' 8 8 = charging := by
  rw [battStatusOf, BitVec.extractLsb'_append_eq_of_le (by decide)]
  exact BitVec.extractLsb'_append_eq_right

/-- PERCENT lies directly above CHARGING (R35). -/
theorem battStatusOf_percent (charger charging percent : Byte) :
    (battStatusOf charger charging percent).extractLsb' 16 8 = percent := by
  rw [battStatusOf, BitVec.extractLsb'_append_eq_of_le (by decide), BitVec.extractLsb'_append_eq_of_le (by decide)]
  exact BitVec.extractLsb'_append_eq_right

/-! ### The command by RESP_COUNT (R93) -/

theorem exec_parseBattery_of_full {s : State} (h : s.respCount.toNat = 12) :
    exec .parseBattery s = .next (complete { s with
      battStatus := battStatusOf (respByte s 4) (respByte s 5) (respByte s 6)
      battMv := respByte s 9 ++ respByte s 8 }) :=
  (if_neg h.not_lt).trans (if_neg h.not_gt)

theorem exec_parseBattery_of_short {s : State} (h : s.respCount.toNat < 12) :
    exec .parseBattery s = .next (raiseError .shortResponse s) :=
  if_pos h

theorem exec_parseBattery_of_long {s : State} (h : 12 < s.respCount.toNat) :
    exec .parseBattery s = .next (raiseError .badLength s) :=
  (if_neg (Nat.lt_asymm h)).trans (if_pos h)

/-- Settles O33: the completing case stores the bytes in the fields that R35 and R36 give them, each refusal only its code. -/
theorem parseBatteryStoresTheResponse : Obligations.ParseBatteryStoresTheResponse := by
  unfold Obligations.ParseBatteryStoresTheResponse
  refine ⟨by decide, fun s => ⟨fun hfull => ?_, exec_parseBattery_of_short, exec_parseBattery_of_long⟩⟩
  exact ⟨_, exec_parseBattery_of_full hfull, rfl, battStatusOf_valid _ _ _, battStatusOf_charger _ _ _,
    battStatusOf_charging _ _ _, battStatusOf_percent _ _ _,
    BitVec.extractLsb'_append_eq_right, BitVec.extractLsb'_append_eq_left⟩

/-! ### The writers of the battery registers (R94) -/

/-- `t` has the battery registers of `s`. -/
def SameBattery (s t : State) : Prop := t.battStatus = s.battStatus ∧ t.battMv = s.battMv

theorem Completes.sameBattery {i : Instr} {s u : State} (h : Completes i s u) (hi : i ≠ .parseBattery) :
    SameBattery s u := by
  cases h using Completes.shapes with
  | parseBattery => exact absurd rfl hi
  | _ => constructor <;> simp

/-- Refused or completed, a command other than PARSE_BATTERY leaves the battery registers. -/
theorem exec_sameBattery {i : Instr} {s t : State} (h : exec i s = .next t) (hi : i ≠ .parseBattery) :
    SameBattery s t := by
  obtain ⟨e, -, rfl⟩ | ⟨u, hu, rfl⟩ := exec_next_cases h
  · exact ⟨rfl, rfl⟩
  · exact hu.sameBattery hi

theorem writePort_sameBattery (w : Word) (s : State) {p : Port} (hp : p ≠ .cmd) :
    SameBattery s (writePort w s p) := by
  obtain ⟨-, -, -, hstatus, hmv, -, -⟩ := writePort_keeps_results w s hp
  exact ⟨hstatus, hmv⟩

/-- The one access that runs PARSE_BATTERY is the 32-bit write of its word to CMD (R17, R53). -/
theorem parseBattery_write {off width : Nat} {w : Word} (hport : legalPort off width = some .cmd)
    (hdecode : decode w = .ok .parseBattery) : Input.write off width w = .write 0x00 32 0x00000020#32 := by
  obtain ⟨-, -, hwidth, -⟩ := (legalPort_eq_some off width .cmd).mp hport
  have hoff : off = 0x00 := offset_of_cmd _ (mem_windowMap_of_legalPort hport) rfl
  have hw : w = 0x00000020#32 := (decodeInvertsEncode w .parseBattery).mp hdecode
  rw [hoff, hwidth, hw]

/-- A step leaves the battery registers unless it accepts a reset or the word of PARSE_BATTERY. -/
theorem step_sameBattery_or {s t : State} (hstep : step s = .next t) :
    SameBattery s t ∨
    ∃ rest, s.inbox = .reset :: rest ∨ s.inbox = .write 0x00 32 0x00000020#32 :: rest := by
  rcases step_cases s with ⟨-, h⟩ | ⟨off, width, rest, -, h⟩ | ⟨rest, hin, h⟩ | ⟨off, width, w, rest, -, -, h⟩ |
    ⟨off, width, w, rest, p, -, hp, -, h⟩ | ⟨off, width, w, rest, i, hin, hport, hdecode, h⟩ |
    ⟨off, width, w, rest, e, -, -, -, h⟩ <;> rw [h] at hstep
  · cases hstep; exact .inl ⟨rfl, rfl⟩
  · cases hstep; exact .inl ⟨rfl, rfl⟩
  · exact .inr ⟨rest, .inl hin⟩
  · cases hstep; exact .inl ⟨rfl, rfl⟩
  · cases hstep; exact .inl (writePort_sameBattery w { s with inbox := rest } hp)
  · by_cases hi : i = .parseBattery
    · rw [parseBattery_write hport (hi ▸ hdecode)] at hin
      exact .inr ⟨rest, .inr hin⟩
    · have hkept := exec_sameBattery hstep hi
      exact .inl hkept
  · cases hstep; exact .inl ⟨rfl, rfl⟩

/-- Settles O41: a step that changed either register did not leave both. -/
theorem onlyParseBatteryWritesTheBattery : Obligations.OnlyParseBatteryWritesTheBattery := by
  unfold Obligations.OnlyParseBatteryWritesTheBattery
  intro s t hstep hchanged
  refine (step_sameBattery_or hstep).resolve_left ?_
  rintro ⟨hstatus, hmv⟩
  exact hchanged.elim (absurd hstatus) (absurd hmv)

end Sys2Proof.Machine
end

section
/-! Errors and stops: every command answers (R96), a refusal shows only in STATUS.ERR, and no step stops the block (R102). -/

namespace Sys2Proof.Machine

/-- No command faults and none is refused a meaning. -/
theorem exec_isNext (i : Instr) (s : State) : ∃ t, exec i s = .next t := by
  obtain ⟨e, -, hexec⟩ | ⟨u, -, hexec⟩ := exec_cases i s
  · exact ⟨_, hexec⟩
  · exact ⟨_, hexec⟩

/-- The table of R95 by number: the codes 2, 3 and 4, each with the commands that raise it. -/
theorem RaisedBy.errBits_cases {i : Instr} {s : State} {e : ErrCode} (h : RaisedBy i s e) :
    (errBits e = 2#4 ∧ i = .encSetWidgetList) ∨
    (errBits e = 3#4 ∧ (i = .crcSpan ∨ i = .finalize ∨ i = .parseBattery)) ∨
    (errBits e = 4#4 ∧ i = .parseBattery) := by
  obtain ⟨rfl, hspan, -⟩ | ⟨rfl, hfinalize, -⟩ | ⟨rfl, hwidgets, -⟩ | ⟨rfl, hshort, -⟩ | ⟨rfl, hlong, -⟩ := h
  · exact .inr (.inl ⟨rfl, .inl hspan⟩)
  · exact .inr (.inl ⟨rfl, .inr (.inl hfinalize)⟩)
  · exact .inl ⟨rfl, hwidgets⟩
  · exact .inr (.inr ⟨rfl, hshort⟩)
  · exact .inr (.inl ⟨rfl, .inr (.inr hlong)⟩)

/-- Settles O34: a refusal is `raiseError`, which writes only STATUS.ERR, and a completed command leaves STATUS.ERR at 0. -/
theorem refusedCommandChangesOnlyErr : Obligations.RefusedCommandChangesOnlyErr := by
  unfold Obligations.RefusedCommandChangesOnlyErr
  intro i s
  obtain ⟨e, -, hexec⟩ | ⟨u, -, hexec⟩ := exec_cases i s
  · exact ⟨raiseError e s, hexec, fun _ => rfl⟩
  · exact ⟨complete u, hexec, fun herr => absurd (complete_err u) herr⟩

/-- Settles O35: a refusal leaves the code it raised, a completed command leaves 0. -/
theorem errorCodesComeFromTheirCommands : Obligations.ErrorCodesComeFromTheirCommands := by
  unfold Obligations.ErrorCodesComeFromTheirCommands
  intro i s t hexec
  obtain ⟨e, he, rfl⟩ | ⟨u, -, rfl⟩ := exec_next_cases hexec
  · exact .inr he.errBits_cases
  · exact .inl (complete_err u)

/-- Settles O7: every kind of step names its next state but the one that runs a command, and every command answers one. -/
theorem noStepStops : Obligations.NoStepStops := by
  unfold Obligations.NoStepStops safeStep
  intro s
  obtain ⟨-, hidle⟩ | ⟨_, _, _, -, hread⟩ | ⟨_, -, hreset⟩ | ⟨_, _, _, _, -, -, hillegal⟩ |
    ⟨_, _, _, _, _, -, -, -, hstore⟩ | ⟨_, _, _, _, i, -, -, -, hcommand⟩ |
    ⟨_, _, _, _, _, -, -, -, hnoCommand⟩ := step_cases s
  · exact ⟨_, hidle⟩
  · exact ⟨_, hread⟩
  · exact ⟨_, hreset⟩
  · exact ⟨_, hillegal⟩
  · exact ⟨_, hstore⟩
  · rw [hcommand]
    exact exec_isNext i _
  · exact ⟨_, hnoCommand⟩

end Sys2Proof.Machine
end

section
/-! The state after reset and the step that answers it (R105, R106). -/

namespace Sys2Proof.Machine

/-! ### The state after reset -/

/-- A memory with no entry holds no written byte (R33). -/
theorem loadByte_nil (a : Nat) : loadByte [] a = none := rfl

/-- No byte of FRAME or of RESP counts as written after reset (R106). -/
@[simp] theorem loadByte_reset_mem (a : Nat) : loadByte State.reset.mem a = none := loadByte_nil a

/-- Settles O52: the table of R106 row by row in the order of the window, then the buffers. -/
theorem resetValuesAreThoseOfTheTable : Obligations.ResetValuesAreThoseOfTheTable := by
  unfold Obligations.ResetValuesAreThoseOfTheTable
  exact ⟨rfl, rfl, rfl, rfl, rfl, rfl, rfl, rfl, rfl, rfl, rfl, rfl, rfl, rfl, rfl, rfl, rfl, rfl, rfl, rfl, rfl,
    loadByte_reset_mem⟩

/-- Settles O54: the registers of R106 meet each clause of the invariant (`reset_inv`). -/
theorem resetMeetsTheStateInvariant : Obligations.ResetMeetsTheStateInvariant := reset_inv

/-! ### The reset input -/

/-- The reset input is accepted like an access, in its turn, and names the state it leaves (R105). -/
theorem acceptInput_of_inbox_reset {s : State} {rest : List Input} (h : s.inbox = .reset :: rest) :
    acceptInput s = .done (platformReset { s with inbox := rest }) := by
  unfold acceptInput
  rw [h]

/-- Of the state it meets, a reset keeps only the accesses still pending and the model's own counts. -/
theorem platformReset_with_inbox (s : State) (rest : List Input) :
    platformReset { s with inbox := rest } =
      { State.reset with inbox := rest, epoch := s.epoch + 1, drawn := s.drawn } := rfl

/-- Settles O53: the input accepted is the platform's reset, and no command runs after it. -/
theorem platformResetRestoresTheResetState : Obligations.PlatformResetRestoresTheResetState := by
  unfold Obligations.PlatformResetRestoresTheResetState
  intro s rest hreset
  calc step s
      = .next (platformReset { s with inbox := rest }) :=
        step_of_acceptInput_done (acceptInput_of_inbox_reset hreset)
    _ = .next { State.reset with inbox := rest, epoch := s.epoch + 1, drawn := s.drawn } := by
        rw [platformReset_with_inbox]

end Sys2Proof.Machine
end
